-- ==== Sys2Proof/Word.lean ====
section
/-! DEFINITION. The word types of the machine (`00_scope.md` rules R6, R8, R9). -/

namespace Sys2Proof

/-- A 32-bit word: a general register, an address, an instruction (rule R6). -/
abbrev Word := BitVec 32

/-- A 64-bit quantity held in an even/odd pair of floating-point registers (rule R31). -/
abbrev DWord := BitVec 64

/-- A halfword (rule R6). -/
abbrev Half := BitVec 16

/-- A byte of memory (rule R6). -/
abbrev Byte := BitVec 8

/-- A register number, the 5-bit fields `rs`, `rt`, `rd`, `fs`, `ft`, `fd` (rules R20, R81). -/
abbrev Reg := BitVec 5

/-- A coprocessor number z, 0 to 3 (rule R14). -/
abbrev CopNum := BitVec 2

end Sys2Proof
end

