-- ==== Sys2Proof/Config.lean ====
section
/-! DEFINITION. The parameters of `00_scope.md` rule R7 as plain data, and the free values (`draw` of
rule R10): opaque constants, of which nothing can be proved but that they are values of their type. -/

namespace Sys2Proof

/-- `TRAP_MODEL` (rule R7, decision D5): what an exception does. -/
inductive TrapModel
  /-- the first exception ends the run, `stopped(cause, info)` -/
  | fault
  /-- an exception enters the coprocessor-0 handler mechanism -/
  | mips1
  deriving DecidableEq, Repr

/-- `SBZ_POLICY` (rules R7, R99): what a non-zero should-be-zero field does. -/
inductive SbzPolicy
  | refuse
  | ignore
  deriving DecidableEq, Repr

/-- `SDIV_CONVENTION` (rules R7, R121): rounding of signed division with a negative operand. -/
inductive SdivConvention
  | truncate
  | floor
  deriving DecidableEq, Repr

/-- One range of admitted byte addresses of `MEM_DOMAIN` (rules R7, R60): `base`, …, `base + size - 1`. -/
structure AddrRange where
  base : Nat
  size : Nat
  deriving DecidableEq, Repr

/-- The rounding modes of FCR31.RM (rule R33). -/
inductive RoundMode
  | nearestEven
  | towardZero
  | up
  | down
  deriving DecidableEq, Repr

/-- What a comparison of two floating-point values finds (rule R320). -/
structure FpRelation where
  less : Bool
  equal : Bool
  unordered : Bool
  deriving DecidableEq, Repr, Inhabited

/-- The parameter `FP` (rule R7, decision D21): the results of floating-point arithmetic (the instructions
rule R293 calls so), conversion and comparison, as functions of the operands' bits and the rounding mode. A
floating-point result `none` is `draw(NaN)` (rule R293), an integer result `none` a 32-bit draw (rule
R308). -/
structure FpFunctions where
  add32 : RoundMode → Word → Word → Option Word
  sub32 : RoundMode → Word → Word → Option Word
  mul32 : RoundMode → Word → Word → Option Word
  div32 : RoundMode → Word → Word → Option Word
  abs32 : Word → Option Word
  neg32 : Word → Option Word
  add64 : RoundMode → DWord → DWord → Option DWord
  sub64 : RoundMode → DWord → DWord → Option DWord
  mul64 : RoundMode → DWord → DWord → Option DWord
  div64 : RoundMode → DWord → DWord → Option DWord
  abs64 : DWord → Option DWord
  neg64 : DWord → Option DWord
  singleOfDouble : RoundMode → DWord → Option Word
  singleOfWord : RoundMode → Word → Option Word
  doubleOfSingle : RoundMode → Word → Option DWord
  doubleOfWord : RoundMode → Word → Option DWord
  wordOfSingle : RoundMode → Word → Option Word
  wordOfDouble : RoundMode → DWord → Option Word
  relation32 : Word → Word → FpRelation
  relation64 : DWord → DWord → FpRelation
  deriving Inhabited

/-- Which functions `FP` is (rules R7, D21): the default, or some others, named by a number.
DESIGN CHOICE, notes/assumptions/20.md (safe). -/
inductive FpChoice
  | ieee754
  | given (n : Nat)
  deriving DecidableEq, Repr

/-- The parameters of rule R7 that are fixed for a run. `ENTRY` is an argument of the launch state,
`TLB_ENTRIES` is the length of the translation buffer in the state, `CPCOND` is a draw.
DESIGN CHOICE, notes/assumptions/1.md (safe). -/
structure Config where
  bigEndian : Bool
  delaySlots : Bool
  loadDelay : Bool
  hiloHazard : Bool
  trapModel : TrapModel
  sbzPolicy : SbzPolicy
  /-- `COP_PRESENT[0]`, …, `COP_PRESENT[3]` -/
  cop0Present : Bool
  cop1Present : Bool
  cop2Present : Bool
  cop3Present : Bool
  /-- `FMT_W` -/
  fmtW : BitVec 5
  sdiv : SdivConvention
  /-- `FP`; the functions themselves are `State.fp` (Machine/Ops.lean) -/
  fp : FpChoice
  memDomain : List AddrRange
  fetchSeesStores : Bool
  deriving DecidableEq, Repr

/-- `COP_PRESENT[z]` (rules R7, R34). -/
def Config.present (c : Config) (z : CopNum) : Bool :=
  if z = 0 then c.cop0Present else if z = 1 then c.cop1Present
  else if z = 2 then c.cop2Present else c.cop3Present

/-- `FMT_W` names a format value of its own: not one the decoder gives another meaning before it looks
for `FMT_W` (rules R84, R98; notes/assumptions/19.md). -/
abbrev Config.fmtWFree (f : BitVec 5) : Prop :=
  f ≠ 0 ∧ f ≠ 2 ∧ f ≠ 4 ∧ f ≠ 6 ∧ f ≠ 8 ∧ f ≠ 16 ∧ f ≠ 17

/-- The parameters `State.reset` carries: the defaults of rule R7, with `TRAP_MODEL` = `mips1` (the one
trap model that has a reset, rule R420) and a value for each OPEN parameter.
DESIGN CHOICE, notes/assumptions/2.md (unsafe: no claim may rest on the OPEN values). -/
def Config.atReset : Config where
  bigEndian := true
  delaySlots := false
  loadDelay := false
  hiloHazard := false
  trapModel := .mips1
  sbzPolicy := .refuse
  cop0Present := true
  cop1Present := true
  cop2Present := false
  cop3Present := false
  fmtW := 20
  sdiv := .truncate
  fp := .ieee754
  memDomain := [⟨0, 4294967296⟩]
  fetchSeesStores := false

/-! The draws of rule R10. Each is applied to the state's count of draws, so every draw is a fresh
unknown. DESIGN CHOICE, notes/assumptions/6.md (safe). -/

/-- A 32-bit draw: `hi`, `lo` after a division by zero, an unrepresentable `cvt.w`, FCR31's flag bits. -/
opaque Config.freeWord : Nat → Word

/-- A 64-bit draw, from which `draw(NaN)` takes sign and payload (rule R293). -/
opaque Config.freeNaN : Nat → DWord

/-- A condition input `CPCOND[z]` (rule R35). -/
opaque Config.freeCondition : CopNum → Nat → Bool

/-- The six interrupt input levels of one step (rule R390). -/
opaque Config.freeInterruptLevels : Nat → BitVec 6

/-- The draw behind Random and the entry `tlbwr` chooses (rules R40, R359). -/
opaque Config.freeIndex : Nat → Nat

/-- Cause.CE after an exception other than `CoprocessorUnusable` (rule R381). -/
opaque Config.freeCe : Nat → CopNum

/-- The records of functions a run may take as `FP` in place of the default (rule R7): nothing is known of
any of them, so what is proved of a run with `FpChoice.given` holds for every such record.
DESIGN CHOICE, notes/assumptions/20.md (safe). -/
opaque Config.givenFp : Nat → FpFunctions

end Sys2Proof
end

