-- ==== Sys2Proof/Syntax.lean ====
section
/-! DEFINITION. The instructions: one constructor per row of spec/opcode_table.json, operands in the order
of the source's syntax line (`30_encoding.md` rule R111), each with the rule that gives its meaning. -/

namespace Sys2Proof

/-- The 149 machine instructions (rules R84 to R92). Register fields are 5 bits, `imm` and `offset` 16,
`target` 26, `code` 20 and `cofun` 25 bits (rule R81). `nop` is `sll $0, $0, 0` (rule R103). -/
inductive Instr
  /-- `add`, rule R123 -/
  | add (rd rs rt : Reg)
  /-- `addu`, rule R124 -/
  | addu (rd rs rt : Reg)
  /-- `and`, rule R127 -/
  | and (rd rs rt : Reg)
  /-- `nor`, rule R140 -/
  | nor (rd rs rt : Reg)
  /-- `or`, rule R142 -/
  | or (rd rs rt : Reg)
  /-- `sub`, rule R154 -/
  | sub (rd rs rt : Reg)
  /-- `subu`, rule R155 -/
  | subu (rd rs rt : Reg)
  /-- `xor`, rule R156 -/
  | xor (rd rs rt : Reg)
  /-- `slt`, rule R175 -/
  | slt (rd rs rt : Reg)
  /-- `sltu`, rule R176 -/
  | sltu (rd rs rt : Reg)
  /-- `sllv`, rule R147 -/
  | sllv (rd rt rs : Reg)
  /-- `srav`, rule R149 -/
  | srav (rd rt rs : Reg)
  /-- `srlv`, rule R151 -/
  | srlv (rd rt rs : Reg)
  /-- `sll`, rule R146 -/
  | sll (rd rt shamt : Reg)
  /-- `sra`, rule R148 -/
  | sra (rd rt shamt : Reg)
  /-- `srl`, rule R150 -/
  | srl (rd rt shamt : Reg)
  /-- `div`, rule R129 -/
  | div (rs rt : Reg)
  /-- `divu`, rule R130 -/
  | divu (rs rt : Reg)
  /-- `mult`, rule R133 -/
  | mult (rs rt : Reg)
  /-- `multu`, rule R134 -/
  | multu (rs rt : Reg)
  /-- `jr`, rule R217 -/
  | jr (rs : Reg)
  /-- `jalr`, rule R216 -/
  | jalr (rs rd : Reg)
  /-- `mthi`, rule R274 -/
  | mthi (rs : Reg)
  /-- `mtlo`, rule R275 -/
  | mtlo (rs : Reg)
  /-- `mfhi`, rule R272 -/
  | mfhi (rd : Reg)
  /-- `mflo`, rule R273 -/
  | mflo (rd : Reg)
  /-- `syscall`, rule R351 -/
  | syscall (code : BitVec 20)
  /-- `break`, rule R352 -/
  | brk (code : BitVec 20)
  /-- `addi`, rule R125 -/
  | addi (rt rs : Reg) (imm : BitVec 16)
  /-- `addiu`, rule R126 -/
  | addiu (rt rs : Reg) (imm : BitVec 16)
  /-- `andi`, rule R128 -/
  | andi (rt rs : Reg) (imm : BitVec 16)
  /-- `ori`, rule R143 -/
  | ori (rt rs : Reg) (imm : BitVec 16)
  /-- `xori`, rule R157 -/
  | xori (rt rs : Reg) (imm : BitVec 16)
  /-- `lui`, rule R171 -/
  | lui (rt : Reg) (imm : BitVec 16)
  /-- `slti`, rule R177 -/
  | slti (rt rs : Reg) (imm : BitVec 16)
  /-- `sltiu`, rule R178 -/
  | sltiu (rt rs : Reg) (imm : BitVec 16)
  /-- `beq`, rule R196 -/
  | beq (rs rt : Reg) (offset : BitVec 16)
  /-- `bne`, rule R203 -/
  | bne (rs rt : Reg) (offset : BitVec 16)
  /-- `blez`, rule R200 -/
  | blez (rs : Reg) (offset : BitVec 16)
  /-- `bgtz`, rule R199 -/
  | bgtz (rs : Reg) (offset : BitVec 16)
  /-- `bltz`, rule R202 -/
  | bltz (rs : Reg) (offset : BitVec 16)
  /-- `bgez`, rule R197 -/
  | bgez (rs : Reg) (offset : BitVec 16)
  /-- `bltzal`, rule R201 -/
  | bltzal (rs : Reg) (offset : BitVec 16)
  /-- `bgezal`, rule R198 -/
  | bgezal (rs : Reg) (offset : BitVec 16)
  /-- `j`, rule R214 -/
  | j (target : BitVec 26)
  /-- `jal`, rule R215 -/
  | jal (target : BitVec 26)
  /-- `lb`, rule R240 -/
  | lb (rt base : Reg) (offset : BitVec 16)
  /-- `lbu`, rule R241 -/
  | lbu (rt base : Reg) (offset : BitVec 16)
  /-- `lh`, rule R242 -/
  | lh (rt base : Reg) (offset : BitVec 16)
  /-- `lhu`, rule R243 -/
  | lhu (rt base : Reg) (offset : BitVec 16)
  /-- `lw`, rule R244 -/
  | lw (rt base : Reg) (offset : BitVec 16)
  /-- `lwl`, rule R246 -/
  | lwl (rt base : Reg) (offset : BitVec 16)
  /-- `lwr`, rule R247 -/
  | lwr (rt base : Reg) (offset : BitVec 16)
  /-- `sb`, rule R250 -/
  | sb (rt base : Reg) (offset : BitVec 16)
  /-- `sh`, rule R251 -/
  | sh (rt base : Reg) (offset : BitVec 16)
  /-- `sw`, rule R252 -/
  | sw (rt base : Reg) (offset : BitVec 16)
  /-- `swl`, rule R254 -/
  | swl (rt base : Reg) (offset : BitVec 16)
  /-- `swr`, rule R255 -/
  | swr (rt base : Reg) (offset : BitVec 16)
  /-- `lwc0`, rule R245 -/
  | lwc0 (rt base : Reg) (offset : BitVec 16)
  /-- `swc0`, rule R253 -/
  | swc0 (rt base : Reg) (offset : BitVec 16)
  /-- `lwc1`, rule R245 -/
  | lwc1 (rt base : Reg) (offset : BitVec 16)
  /-- `swc1`, rule R253 -/
  | swc1 (rt base : Reg) (offset : BitVec 16)
  /-- `lwc2`, rule R245 -/
  | lwc2 (rt base : Reg) (offset : BitVec 16)
  /-- `swc2`, rule R253 -/
  | swc2 (rt base : Reg) (offset : BitVec 16)
  /-- `lwc3`, rule R245 -/
  | lwc3 (rt base : Reg) (offset : BitVec 16)
  /-- `swc3`, rule R253 -/
  | swc3 (rt base : Reg) (offset : BitVec 16)
  /-- `mfc0`, rule R276 -/
  | mfc0 (rt rd : Reg)
  /-- `cfc0`, rule R278 -/
  | cfc0 (rt rd : Reg)
  /-- `mtc0`, rule R280 -/
  | mtc0 (rt rd : Reg)
  /-- `ctc0`, rule R279 -/
  | ctc0 (rt rd : Reg)
  /-- `bc0f`, rule R195 -/
  | bc0f (offset : BitVec 16)
  /-- `bc0t`, rule R194 -/
  | bc0t (offset : BitVec 16)
  /-- `mfc1`, rule R276 -/
  | mfc1 (rt rd : Reg)
  /-- `cfc1`, rule R278 -/
  | cfc1 (rt rd : Reg)
  /-- `mtc1`, rule R280 -/
  | mtc1 (rt rd : Reg)
  /-- `ctc1`, rule R279 -/
  | ctc1 (rt rd : Reg)
  /-- `bc1f`, rule R195 -/
  | bc1f (offset : BitVec 16)
  /-- `bc1t`, rule R194 -/
  | bc1t (offset : BitVec 16)
  /-- `mfc2`, rule R276 -/
  | mfc2 (rt rd : Reg)
  /-- `cfc2`, rule R278 -/
  | cfc2 (rt rd : Reg)
  /-- `mtc2`, rule R280 -/
  | mtc2 (rt rd : Reg)
  /-- `ctc2`, rule R279 -/
  | ctc2 (rt rd : Reg)
  /-- `bc2f`, rule R195 -/
  | bc2f (offset : BitVec 16)
  /-- `bc2t`, rule R194 -/
  | bc2t (offset : BitVec 16)
  /-- `mfc3`, rule R276 -/
  | mfc3 (rt rd : Reg)
  /-- `cfc3`, rule R278 -/
  | cfc3 (rt rd : Reg)
  /-- `mtc3`, rule R280 -/
  | mtc3 (rt rd : Reg)
  /-- `ctc3`, rule R279 -/
  | ctc3 (rt rd : Reg)
  /-- `bc3f`, rule R195 -/
  | bc3f (offset : BitVec 16)
  /-- `bc3t`, rule R194 -/
  | bc3t (offset : BitVec 16)
  /-- `tlbr`, rule R357 -/
  | tlbr
  /-- `tlbwi`, rule R358 -/
  | tlbwi
  /-- `tlbwr`, rule R359 -/
  | tlbwr
  /-- `tlbp`, rule R360 -/
  | tlbp
  /-- `rfe`, rule R356 -/
  | rfe
  /-- `cop2`, rule R361 -/
  | cop2 (cofun : BitVec 25)
  /-- `cop3`, rule R361 -/
  | cop3 (cofun : BitVec 25)
  /-- `abs.d`, rule R300 -/
  | absD (fd fs : Reg)
  /-- `abs.s`, rule R301 -/
  | absS (fd fs : Reg)
  /-- `add.d`, rule R302 -/
  | addD (fd fs ft : Reg)
  /-- `add.s`, rule R303 -/
  | addS (fd fs ft : Reg)
  /-- `cvt.d.s`, rule R304 -/
  | cvtDS (fd fs : Reg)
  /-- `cvt.d.w`, rule R305 -/
  | cvtDW (fd fs : Reg)
  /-- `cvt.s.d`, rule R306 -/
  | cvtSD (fd fs : Reg)
  /-- `cvt.s.w`, rule R307 -/
  | cvtSW (fd fs : Reg)
  /-- `cvt.w.d`, rule R308 -/
  | cvtWD (fd fs : Reg)
  /-- `cvt.w.s`, rule R309 -/
  | cvtWS (fd fs : Reg)
  /-- `div.d`, rule R310 -/
  | divD (fd fs ft : Reg)
  /-- `div.s`, rule R311 -/
  | divS (fd fs ft : Reg)
  /-- `mov.d`, rule R314 -/
  | movD (fd fs : Reg)
  /-- `mov.s`, rule R315 -/
  | movS (fd fs : Reg)
  /-- `mul.d`, rule R316 -/
  | mulD (fd fs ft : Reg)
  /-- `mul.s`, rule R317 -/
  | mulS (fd fs ft : Reg)
  /-- `neg.d`, rule R318 -/
  | negD (fd fs : Reg)
  /-- `neg.s`, rule R319 -/
  | negS (fd fs : Reg)
  /-- `sub.d`, rule R342 -/
  | subD (fd fs ft : Reg)
  /-- `sub.s`, rule R343 -/
  | subS (fd fs ft : Reg)
  /-- `c.f.s`, rule R321 -/
  | cFS (fs ft : Reg)
  /-- `c.f.d`, rule R321 -/
  | cFD (fs ft : Reg)
  /-- `c.un.s`, rule R322 -/
  | cUnS (fs ft : Reg)
  /-- `c.un.d`, rule R322 -/
  | cUnD (fs ft : Reg)
  /-- `c.eq.s`, rule R323 -/
  | cEqS (fs ft : Reg)
  /-- `c.eq.d`, rule R323 -/
  | cEqD (fs ft : Reg)
  /-- `c.ueq.s`, rule R324 -/
  | cUeqS (fs ft : Reg)
  /-- `c.ueq.d`, rule R324 -/
  | cUeqD (fs ft : Reg)
  /-- `c.olt.s`, rule R325 -/
  | cOltS (fs ft : Reg)
  /-- `c.olt.d`, rule R325 -/
  | cOltD (fs ft : Reg)
  /-- `c.ult.s`, rule R326 -/
  | cUltS (fs ft : Reg)
  /-- `c.ult.d`, rule R326 -/
  | cUltD (fs ft : Reg)
  /-- `c.ole.s`, rule R327 -/
  | cOleS (fs ft : Reg)
  /-- `c.ole.d`, rule R327 -/
  | cOleD (fs ft : Reg)
  /-- `c.ule.s`, rule R328 -/
  | cUleS (fs ft : Reg)
  /-- `c.ule.d`, rule R328 -/
  | cUleD (fs ft : Reg)
  /-- `c.sf.s`, rule R329 -/
  | cSfS (fs ft : Reg)
  /-- `c.sf.d`, rule R329 -/
  | cSfD (fs ft : Reg)
  /-- `c.ngle.s`, rule R330 -/
  | cNgleS (fs ft : Reg)
  /-- `c.ngle.d`, rule R330 -/
  | cNgleD (fs ft : Reg)
  /-- `c.seq.s`, rule R331 -/
  | cSeqS (fs ft : Reg)
  /-- `c.seq.d`, rule R331 -/
  | cSeqD (fs ft : Reg)
  /-- `c.ngl.s`, rule R332 -/
  | cNglS (fs ft : Reg)
  /-- `c.ngl.d`, rule R332 -/
  | cNglD (fs ft : Reg)
  /-- `c.lt.s`, rule R333 -/
  | cLtS (fs ft : Reg)
  /-- `c.lt.d`, rule R333 -/
  | cLtD (fs ft : Reg)
  /-- `c.nge.s`, rule R334 -/
  | cNgeS (fs ft : Reg)
  /-- `c.nge.d`, rule R334 -/
  | cNgeD (fs ft : Reg)
  /-- `c.le.s`, rule R335 -/
  | cLeS (fs ft : Reg)
  /-- `c.le.d`, rule R335 -/
  | cLeD (fs ft : Reg)
  /-- `c.ngt.s`, rule R336 -/
  | cNgtS (fs ft : Reg)
  /-- `c.ngt.d`, rule R336 -/
  | cNgtD (fs ft : Reg)
  deriving DecidableEq, Repr

end Sys2Proof
end

