-- ==== Sys2Proof/WellFormed.lean ====
section
/-! DEFINITION. The operand checks of `10_state.md` rule R43 that read only the instruction: a word that
decodes to an ill-formed instruction is refused when it executes. -/

namespace Sys2Proof

/-- The register number can name a double: it is even (rule R31). -/
def evenReg (r : Reg) : Bool := !r.getLsbD 0

/-- The floating-point register fields of an instruction that name a double-precision operand or result
(rules R31, R292). -/
def Instr.doubleRegs : Instr → List Reg
  | .absD fd fs | .movD fd fs | .negD fd fs => [fd, fs]
  | .addD fd fs ft | .divD fd fs ft | .mulD fd fs ft | .subD fd fs ft => [fd, fs, ft]
  | .cvtDS fd _ | .cvtDW fd _ => [fd]
  | .cvtSD _ fs | .cvtWD _ fs => [fs]
  | .cFD fs ft | .cUnD fs ft | .cEqD fs ft | .cUeqD fs ft | .cOltD fs ft | .cUltD fs ft
  | .cOleD fs ft | .cUleD fs ft | .cSfD fs ft | .cNgleD fs ft | .cSeqD fs ft | .cNglD fs ft
  | .cLtD fs ft | .cNgeD fs ft | .cLeD fs ft | .cNgtD fs ft => [fs, ft]
  | .add _ _ _ | .addu _ _ _ | .and _ _ _ | .nor _ _ _ | .or _ _ _ | .sub _ _ _ | .subu _ _ _
  | .xor _ _ _ | .slt _ _ _ | .sltu _ _ _ | .sllv _ _ _ | .srav _ _ _ | .srlv _ _ _ | .sll _ _ _
  | .sra _ _ _ | .srl _ _ _ | .div _ _ | .divu _ _ | .mult _ _ | .multu _ _ | .jr _ | .jalr _ _
  | .mthi _ | .mtlo _ | .mfhi _ | .mflo _ | .syscall _ | .brk _ | .addi _ _ _ | .addiu _ _ _
  | .andi _ _ _ | .ori _ _ _ | .xori _ _ _ | .lui _ _ | .slti _ _ _ | .sltiu _ _ _ | .beq _ _ _
  | .bne _ _ _ | .blez _ _ | .bgtz _ _ | .bltz _ _ | .bgez _ _ | .bltzal _ _ | .bgezal _ _ | .j _
  | .jal _ | .lb _ _ _ | .lbu _ _ _ | .lh _ _ _ | .lhu _ _ _ | .lw _ _ _ | .lwl _ _ _
  | .lwr _ _ _ | .sb _ _ _ | .sh _ _ _ | .sw _ _ _ | .swl _ _ _ | .swr _ _ _ | .lwc0 _ _ _
  | .swc0 _ _ _ | .lwc1 _ _ _ | .swc1 _ _ _ | .lwc2 _ _ _ | .swc2 _ _ _ | .lwc3 _ _ _
  | .swc3 _ _ _ | .mfc0 _ _ | .cfc0 _ _ | .mtc0 _ _ | .ctc0 _ _ | .bc0f _ | .bc0t _ | .mfc1 _ _
  | .cfc1 _ _ | .mtc1 _ _ | .ctc1 _ _ | .bc1f _ | .bc1t _ | .mfc2 _ _ | .cfc2 _ _ | .mtc2 _ _
  | .ctc2 _ _ | .bc2f _ | .bc2t _ | .mfc3 _ _ | .cfc3 _ _ | .mtc3 _ _ | .ctc3 _ _ | .bc3f _
  | .bc3t _ | .tlbr | .tlbwi | .tlbwr | .tlbp | .rfe | .cop2 _ | .cop3 _ | .absS _ _
  | .addS _ _ _ | .cvtSW _ _ | .cvtWS _ _ | .divS _ _ _ | .movS _ _ | .mulS _ _ _ | .negS _ _
  | .subS _ _ _ | .cFS _ _ | .cUnS _ _ | .cEqS _ _ | .cUeqS _ _ | .cOltS _ _ | .cUltS _ _
  | .cOleS _ _ | .cUleS _ _ | .cSfS _ _ | .cNgleS _ _ | .cSeqS _ _ | .cNglS _ _ | .cLtS _ _
  | .cNgeS _ _ | .cLeS _ _ | .cNgtS _ _ => []

/-- The coprocessor-0 register numbers that name a register (rule R36). -/
def cp0Exists (rd : Reg) : Bool :=
  rd = 0 || rd = 1 || rd = 2 || rd = 4 || rd = 8 || rd = 10 || rd = 12 || rd = 13 || rd = 14 || rd = 15

/-- The checks on register numbers that single out particular instructions: `jalr` with `rd` = `rs`
(R216), `bltzal` and `bgezal` with `rs` = 31 (R201, R198), the control registers of `cfc1` and `ctc1`
(R278, R279), the reserved coprocessor-0 numbers (R276, R280). -/
def Instr.registersAllowed : Instr → Bool
  | .jalr rs rd => rd != rs
  | .bltzal rs _ | .bgezal rs _ => rs != 31
  | .cfc1 _ rd => rd = 0 || rd = 31
  | .ctc1 _ rd => rd = 31
  | .mfc0 _ rd | .mtc0 _ rd => cp0Exists rd
  | .add _ _ _ | .addu _ _ _ | .and _ _ _ | .nor _ _ _ | .or _ _ _ | .sub _ _ _ | .subu _ _ _
  | .xor _ _ _ | .slt _ _ _ | .sltu _ _ _ | .sllv _ _ _ | .srav _ _ _ | .srlv _ _ _ | .sll _ _ _
  | .sra _ _ _ | .srl _ _ _ | .div _ _ | .divu _ _ | .mult _ _ | .multu _ _ | .jr _ | .mthi _
  | .mtlo _ | .mfhi _ | .mflo _ | .syscall _ | .brk _ | .addi _ _ _ | .addiu _ _ _ | .andi _ _ _
  | .ori _ _ _ | .xori _ _ _ | .lui _ _ | .slti _ _ _ | .sltiu _ _ _ | .beq _ _ _ | .bne _ _ _
  | .blez _ _ | .bgtz _ _ | .bltz _ _ | .bgez _ _ | .j _ | .jal _ | .lb _ _ _ | .lbu _ _ _
  | .lh _ _ _ | .lhu _ _ _ | .lw _ _ _ | .lwl _ _ _ | .lwr _ _ _ | .sb _ _ _ | .sh _ _ _
  | .sw _ _ _ | .swl _ _ _ | .swr _ _ _ | .lwc0 _ _ _ | .swc0 _ _ _ | .lwc1 _ _ _ | .swc1 _ _ _
  | .lwc2 _ _ _ | .swc2 _ _ _ | .lwc3 _ _ _ | .swc3 _ _ _ | .cfc0 _ _ | .ctc0 _ _ | .bc0f _
  | .bc0t _ | .mfc1 _ _ | .mtc1 _ _ | .bc1f _ | .bc1t _ | .mfc2 _ _ | .cfc2 _ _ | .mtc2 _ _
  | .ctc2 _ _ | .bc2f _ | .bc2t _ | .mfc3 _ _ | .cfc3 _ _ | .mtc3 _ _ | .ctc3 _ _ | .bc3f _
  | .bc3t _ | .tlbr | .tlbwi | .tlbwr | .tlbp | .rfe | .cop2 _ | .cop3 _ | .absD _ _ | .absS _ _
  | .addD _ _ _ | .addS _ _ _ | .cvtDS _ _ | .cvtDW _ _ | .cvtSD _ _ | .cvtSW _ _ | .cvtWD _ _
  | .cvtWS _ _ | .divD _ _ _ | .divS _ _ _ | .movD _ _ | .movS _ _ | .mulD _ _ _ | .mulS _ _ _
  | .negD _ _ | .negS _ _ | .subD _ _ _ | .subS _ _ _ | .cFS _ _ | .cFD _ _ | .cUnS _ _
  | .cUnD _ _ | .cEqS _ _ | .cEqD _ _ | .cUeqS _ _ | .cUeqD _ _ | .cOltS _ _ | .cOltD _ _
  | .cUltS _ _ | .cUltD _ _ | .cOleS _ _ | .cOleD _ _ | .cUleS _ _ | .cUleD _ _ | .cSfS _ _
  | .cSfD _ _ | .cNgleS _ _ | .cNgleD _ _ | .cSeqS _ _ | .cSeqD _ _ | .cNglS _ _ | .cNglD _ _
  | .cLtS _ _ | .cLtD _ _ | .cNgeS _ _ | .cNgeD _ _ | .cLeS _ _ | .cLeD _ _ | .cNgtS _ _
  | .cNgtD _ _ => true

/-- The instruction passes every static operand check of rule R43. -/
def Instr.wellFormed (i : Instr) : Bool :=
  i.doubleRegs.all evenReg && i.registersAllowed

end Sys2Proof
end

