-- ==== Sys2Proof/Decode.lean ====
section
/-! DEFINITION. The decoder of `30_encoding.md` (rules R80 to R103), total on 32-bit words, and after it the
encoder written from the same tables. -/

namespace Sys2Proof

/-! Field positions, rule R81. -/

def opOf (w : Word) : BitVec 6 := w.extractLsb' 26 6
def rsOf (w : Word) : Reg := w.extractLsb' 21 5
def rtOf (w : Word) : Reg := w.extractLsb' 16 5
def rdOf (w : Word) : Reg := w.extractLsb' 11 5
def shamtOf (w : Word) : Reg := w.extractLsb' 6 5
def functOf (w : Word) : BitVec 6 := w.extractLsb' 0 6
def immOf (w : Word) : BitVec 16 := w.extractLsb' 0 16
def targetOf (w : Word) : BitVec 26 := w.extractLsb' 0 26
def codeOf (w : Word) : BitVec 20 := w.extractLsb' 6 20
def cofunOf (w : Word) : BitVec 25 := w.extractLsb' 0 25
/-- The branch-on-coprocessor true/false bit, bit 16 (rule R90). -/
def tfOf (w : Word) : BitVec 1 := w.extractLsb' 16 1
/-- Bit 25, set in a coprocessor operation (rule R82, format `C-op`). -/
def coOf (w : Word) : BitVec 1 := w.extractLsb' 25 1
/-- The coprocessor-0 `funct(4:0)` field (rule R91). -/
def cp0FunctOf (w : Word) : BitVec 5 := w.extractLsb' 0 5

/-- The `funct(5:0)` table for op = 0 (rule R87); `none` is an unassigned cell. -/
def decodeSpecial (w : Word) : Option Instr :=
  match (functOf w).toNat with
  | 0x00 => some (.sll (rdOf w) (rtOf w) (shamtOf w))
  | 0x02 => some (.srl (rdOf w) (rtOf w) (shamtOf w))
  | 0x03 => some (.sra (rdOf w) (rtOf w) (shamtOf w))
  | 0x04 => some (.sllv (rdOf w) (rtOf w) (rsOf w))
  | 0x06 => some (.srlv (rdOf w) (rtOf w) (rsOf w))
  | 0x07 => some (.srav (rdOf w) (rtOf w) (rsOf w))
  | 0x08 => some (.jr (rsOf w))
  | 0x09 => some (.jalr (rsOf w) (rdOf w))
  | 0x0c => some (.syscall (codeOf w))
  | 0x0d => some (.brk (codeOf w))
  | 0x10 => some (.mfhi (rdOf w))
  | 0x11 => some (.mthi (rsOf w))
  | 0x12 => some (.mflo (rdOf w))
  | 0x13 => some (.mtlo (rsOf w))
  | 0x18 => some (.mult (rsOf w) (rtOf w))
  | 0x19 => some (.multu (rsOf w) (rtOf w))
  | 0x1a => some (.div (rsOf w) (rtOf w))
  | 0x1b => some (.divu (rsOf w) (rtOf w))
  | 0x20 => some (.add (rdOf w) (rsOf w) (rtOf w))
  | 0x21 => some (.addu (rdOf w) (rsOf w) (rtOf w))
  | 0x22 => some (.sub (rdOf w) (rsOf w) (rtOf w))
  | 0x23 => some (.subu (rdOf w) (rsOf w) (rtOf w))
  | 0x24 => some (.and (rdOf w) (rsOf w) (rtOf w))
  | 0x25 => some (.or (rdOf w) (rsOf w) (rtOf w))
  | 0x26 => some (.xor (rdOf w) (rsOf w) (rtOf w))
  | 0x27 => some (.nor (rdOf w) (rsOf w) (rtOf w))
  | 0x2a => some (.slt (rdOf w) (rsOf w) (rtOf w))
  | 0x2b => some (.sltu (rdOf w) (rsOf w) (rtOf w))
  | _ => none

/-- The `rt(20:16)` table for op = 1 (rule R88). -/
def decodeRegimm (w : Word) : Option Instr :=
  match (rtOf w).toNat with
  | 0x00 => some (.bltz (rsOf w) (immOf w))
  | 0x01 => some (.bgez (rsOf w) (immOf w))
  | 0x10 => some (.bltzal (rsOf w) (immOf w))
  | 0x11 => some (.bgezal (rsOf w) (immOf w))
  | _ => none

/-- The `funct(4:0)` table for op = 16, rs = 16 (rule R91). -/
def decodeCp0 (w : Word) : Option Instr :=
  match (cp0FunctOf w).toNat with
  | 0x01 => some (.tlbr)
  | 0x02 => some (.tlbwi)
  | 0x06 => some (.tlbwr)
  | 0x08 => some (.tlbp)
  | 0x10 => some (.rfe)
  | _ => none

/-- The floating-point `funct(5:0)` table for rs = 16, format `s` (rule R92). -/
def decodeFpSingle (w : Word) : Option Instr :=
  match (functOf w).toNat with
  | 0x00 => some (.addS (shamtOf w) (rdOf w) (rtOf w))
  | 0x01 => some (.subS (shamtOf w) (rdOf w) (rtOf w))
  | 0x02 => some (.mulS (shamtOf w) (rdOf w) (rtOf w))
  | 0x03 => some (.divS (shamtOf w) (rdOf w) (rtOf w))
  | 0x05 => some (.absS (shamtOf w) (rdOf w))
  | 0x06 => some (.movS (shamtOf w) (rdOf w))
  | 0x07 => some (.negS (shamtOf w) (rdOf w))
  | 0x21 => some (.cvtDS (shamtOf w) (rdOf w))
  | 0x24 => some (.cvtWS (shamtOf w) (rdOf w))
  | 0x30 => some (.cFS (rdOf w) (rtOf w))
  | 0x31 => some (.cUnS (rdOf w) (rtOf w))
  | 0x32 => some (.cEqS (rdOf w) (rtOf w))
  | 0x33 => some (.cUeqS (rdOf w) (rtOf w))
  | 0x34 => some (.cOltS (rdOf w) (rtOf w))
  | 0x35 => some (.cUltS (rdOf w) (rtOf w))
  | 0x36 => some (.cOleS (rdOf w) (rtOf w))
  | 0x37 => some (.cUleS (rdOf w) (rtOf w))
  | 0x38 => some (.cSfS (rdOf w) (rtOf w))
  | 0x39 => some (.cNgleS (rdOf w) (rtOf w))
  | 0x3a => some (.cSeqS (rdOf w) (rtOf w))
  | 0x3b => some (.cNglS (rdOf w) (rtOf w))
  | 0x3c => some (.cLtS (rdOf w) (rtOf w))
  | 0x3d => some (.cNgeS (rdOf w) (rtOf w))
  | 0x3e => some (.cLeS (rdOf w) (rtOf w))
  | 0x3f => some (.cNgtS (rdOf w) (rtOf w))
  | _ => none

/-- The floating-point `funct(5:0)` table for rs = 17, format `d` (rule R92). -/
def decodeFpDouble (w : Word) : Option Instr :=
  match (functOf w).toNat with
  | 0x00 => some (.addD (shamtOf w) (rdOf w) (rtOf w))
  | 0x01 => some (.subD (shamtOf w) (rdOf w) (rtOf w))
  | 0x02 => some (.mulD (shamtOf w) (rdOf w) (rtOf w))
  | 0x03 => some (.divD (shamtOf w) (rdOf w) (rtOf w))
  | 0x05 => some (.absD (shamtOf w) (rdOf w))
  | 0x06 => some (.movD (shamtOf w) (rdOf w))
  | 0x07 => some (.negD (shamtOf w) (rdOf w))
  | 0x20 => some (.cvtSD (shamtOf w) (rdOf w))
  | 0x24 => some (.cvtWD (shamtOf w) (rdOf w))
  | 0x30 => some (.cFD (rdOf w) (rtOf w))
  | 0x31 => some (.cUnD (rdOf w) (rtOf w))
  | 0x32 => some (.cEqD (rdOf w) (rtOf w))
  | 0x33 => some (.cUeqD (rdOf w) (rtOf w))
  | 0x34 => some (.cOltD (rdOf w) (rtOf w))
  | 0x35 => some (.cUltD (rdOf w) (rtOf w))
  | 0x36 => some (.cOleD (rdOf w) (rtOf w))
  | 0x37 => some (.cUleD (rdOf w) (rtOf w))
  | 0x38 => some (.cSfD (rdOf w) (rtOf w))
  | 0x39 => some (.cNgleD (rdOf w) (rtOf w))
  | 0x3a => some (.cSeqD (rdOf w) (rtOf w))
  | 0x3b => some (.cNglD (rdOf w) (rtOf w))
  | 0x3c => some (.cLtD (rdOf w) (rtOf w))
  | 0x3d => some (.cNgeD (rdOf w) (rtOf w))
  | 0x3e => some (.cLeD (rdOf w) (rtOf w))
  | 0x3f => some (.cNgtD (rdOf w) (rtOf w))
  | _ => none

/-- The two conversions selected by the format value `FMT_W` (rules R84, R98). -/
def decodeFpWord (w : Word) : Option Instr :=
  match (functOf w).toNat with
  | 0x20 => some (.cvtSW (shamtOf w) (rdOf w))
  | 0x21 => some (.cvtDW (shamtOf w) (rdOf w))
  | _ => none

/-- The `rs(25:21)` table for op = 16 + 0 (rules R84, R89, R90). -/
def decodeCop0 (w : Word) : Option Instr :=
  match (rsOf w).toNat with
  | 0 => some (.mfc0 (rtOf w) (rdOf w))
  | 2 => some (.cfc0 (rtOf w) (rdOf w))
  | 4 => some (.mtc0 (rtOf w) (rdOf w))
  | 6 => some (.ctc0 (rtOf w) (rdOf w))
  | 8 => if tfOf w = 0 then some (.bc0f (immOf w)) else some (.bc0t (immOf w))
  | 16 => decodeCp0 w
  | _ => none

/-- The `rs(25:21)` table for op = 16 + 1 (rules R84, R89, R90). -/
def decodeCop1 (fmtW : BitVec 5) (w : Word) : Option Instr :=
  match (rsOf w).toNat with
  | 0 => some (.mfc1 (rtOf w) (rdOf w))
  | 2 => some (.cfc1 (rtOf w) (rdOf w))
  | 4 => some (.mtc1 (rtOf w) (rdOf w))
  | 6 => some (.ctc1 (rtOf w) (rdOf w))
  | 8 => if tfOf w = 0 then some (.bc1f (immOf w)) else some (.bc1t (immOf w))
  | 16 => decodeFpSingle w
  | 17 => decodeFpDouble w
  | _ => if rsOf w = fmtW then decodeFpWord w else none

/-- The `rs(25:21)` table for op = 16 + 2 (rules R84, R89, R90). -/
def decodeCop2 (w : Word) : Option Instr :=
  if coOf w = 1 then some (.cop2 (cofunOf w)) else
  match (rsOf w).toNat with
  | 0 => some (.mfc2 (rtOf w) (rdOf w))
  | 2 => some (.cfc2 (rtOf w) (rdOf w))
  | 4 => some (.mtc2 (rtOf w) (rdOf w))
  | 6 => some (.ctc2 (rtOf w) (rdOf w))
  | 8 => if tfOf w = 0 then some (.bc2f (immOf w)) else some (.bc2t (immOf w))
  | _ => none

/-- The `rs(25:21)` table for op = 16 + 3 (rules R84, R89, R90). -/
def decodeCop3 (w : Word) : Option Instr :=
  if coOf w = 1 then some (.cop3 (cofunOf w)) else
  match (rsOf w).toNat with
  | 0 => some (.mfc3 (rtOf w) (rdOf w))
  | 2 => some (.cfc3 (rtOf w) (rdOf w))
  | 4 => some (.mtc3 (rtOf w) (rdOf w))
  | 6 => some (.ctc3 (rtOf w) (rdOf w))
  | 8 => if tfOf w = 0 then some (.bc3f (immOf w)) else some (.bc3t (immOf w))
  | _ => none

/-- The `op(31:26)` table (rule R86) with its pointers; `none` is an unassigned cell of the map. -/
def decodeRow (fmtW : BitVec 5) (w : Word) : Option Instr :=
  match (opOf w).toNat with
  | 0x00 => decodeSpecial w
  | 0x01 => decodeRegimm w
  | 0x02 => some (.j (targetOf w))
  | 0x03 => some (.jal (targetOf w))
  | 0x04 => some (.beq (rsOf w) (rtOf w) (immOf w))
  | 0x05 => some (.bne (rsOf w) (rtOf w) (immOf w))
  | 0x06 => some (.blez (rsOf w) (immOf w))
  | 0x07 => some (.bgtz (rsOf w) (immOf w))
  | 0x08 => some (.addi (rtOf w) (rsOf w) (immOf w))
  | 0x09 => some (.addiu (rtOf w) (rsOf w) (immOf w))
  | 0x0a => some (.slti (rtOf w) (rsOf w) (immOf w))
  | 0x0b => some (.sltiu (rtOf w) (rsOf w) (immOf w))
  | 0x0c => some (.andi (rtOf w) (rsOf w) (immOf w))
  | 0x0d => some (.ori (rtOf w) (rsOf w) (immOf w))
  | 0x0e => some (.xori (rtOf w) (rsOf w) (immOf w))
  | 0x0f => some (.lui (rtOf w) (immOf w))
  | 0x10 => decodeCop0 w
  | 0x11 => decodeCop1 fmtW w
  | 0x12 => decodeCop2 w
  | 0x13 => decodeCop3 w
  | 0x20 => some (.lb (rtOf w) (rsOf w) (immOf w))
  | 0x21 => some (.lh (rtOf w) (rsOf w) (immOf w))
  | 0x22 => some (.lwl (rtOf w) (rsOf w) (immOf w))
  | 0x23 => some (.lw (rtOf w) (rsOf w) (immOf w))
  | 0x24 => some (.lbu (rtOf w) (rsOf w) (immOf w))
  | 0x25 => some (.lhu (rtOf w) (rsOf w) (immOf w))
  | 0x26 => some (.lwr (rtOf w) (rsOf w) (immOf w))
  | 0x28 => some (.sb (rtOf w) (rsOf w) (immOf w))
  | 0x29 => some (.sh (rtOf w) (rsOf w) (immOf w))
  | 0x2a => some (.swl (rtOf w) (rsOf w) (immOf w))
  | 0x2b => some (.sw (rtOf w) (rsOf w) (immOf w))
  | 0x2e => some (.swr (rtOf w) (rsOf w) (immOf w))
  | 0x30 => some (.lwc0 (rtOf w) (rsOf w) (immOf w))
  | 0x31 => some (.lwc1 (rtOf w) (rsOf w) (immOf w))
  | 0x32 => some (.lwc2 (rtOf w) (rsOf w) (immOf w))
  | 0x33 => some (.lwc3 (rtOf w) (rsOf w) (immOf w))
  | 0x38 => some (.swc0 (rtOf w) (rsOf w) (immOf w))
  | 0x39 => some (.swc1 (rtOf w) (rsOf w) (immOf w))
  | 0x3a => some (.swc2 (rtOf w) (rsOf w) (immOf w))
  | 0x3b => some (.swc3 (rtOf w) (rsOf w) (immOf w))
  | _ => none

/-- The coprocessor whose opcode space op 16 to 19 a word lies in (rules R84, R101). -/
def copSpace (w : Word) : Option CopNum :=
  match (opOf w).toNat with
  | 0x10 => some 0
  | 0x11 => some 1
  | 0x12 => some 2
  | 0x13 => some 3
  | _ => none

/-- The should-be-zero bits of an instruction's word (rule R99). `sll`, `srl` and `sra` ignore bits 25:21
and `syscall`, `break` carry a code: none of their bits is checked. -/
def Instr.sbzMask : Instr → Word
  | .add _ _ _ | .addu _ _ _ | .and _ _ _ | .nor _ _ _ | .or _ _ _ | .sub _ _ _ | .subu _ _ _
  | .xor _ _ _ | .slt _ _ _ | .sltu _ _ _ | .sllv _ _ _ | .srav _ _ _ | .srlv _ _ _ | .cFS _ _
  | .cFD _ _ | .cUnS _ _ | .cUnD _ _ | .cEqS _ _ | .cEqD _ _ | .cUeqS _ _ | .cUeqD _ _
  | .cOltS _ _ | .cOltD _ _ | .cUltS _ _ | .cUltD _ _ | .cOleS _ _ | .cOleD _ _ | .cUleS _ _
  | .cUleD _ _ | .cSfS _ _ | .cSfD _ _ | .cNgleS _ _ | .cNgleD _ _ | .cSeqS _ _ | .cSeqD _ _
  | .cNglS _ _ | .cNglD _ _ | .cLtS _ _ | .cLtD _ _ | .cNgeS _ _ | .cNgeD _ _ | .cLeS _ _
  | .cLeD _ _ | .cNgtS _ _ | .cNgtD _ _ => 0x000007C0
  | .mfc0 _ _ | .cfc0 _ _ | .mtc0 _ _ | .ctc0 _ _ | .mfc1 _ _ | .cfc1 _ _ | .mtc1 _ _ | .ctc1 _ _
  | .mfc2 _ _ | .cfc2 _ _ | .mtc2 _ _ | .ctc2 _ _ | .mfc3 _ _ | .cfc3 _ _ | .mtc3 _ _ | .ctc3 _ _ => 0x000007FF
  | .div _ _ | .divu _ _ | .mult _ _ | .multu _ _ => 0x0000FFC0
  | .bc0f _ | .bc0t _ | .bc1f _ | .bc1t _ | .bc2f _ | .bc2t _ | .bc3f _ | .bc3t _ => 0x001E0000
  | .blez _ _ | .bgtz _ _ | .absD _ _ | .absS _ _ | .cvtDS _ _ | .cvtDW _ _ | .cvtSD _ _
  | .cvtSW _ _ | .cvtWD _ _ | .cvtWS _ _ | .movD _ _ | .movS _ _ | .negD _ _ | .negS _ _ => 0x001F0000
  | .jalr _ _ => 0x001F07C0
  | .jr _ | .mthi _ | .mtlo _ => 0x001FFFC0
  | .tlbr | .tlbwi | .tlbwr | .tlbp | .rfe => 0x001FFFE0
  | .lui _ _ => 0x03E00000
  | .mfhi _ | .mflo _ => 0x03FF07C0
  | .sll _ _ _ | .sra _ _ _ | .srl _ _ _ | .syscall _ | .brk _ | .addi _ _ _ | .addiu _ _ _
  | .andi _ _ _ | .ori _ _ _ | .xori _ _ _ | .slti _ _ _ | .sltiu _ _ _ | .beq _ _ _ | .bne _ _ _
  | .bltz _ _ | .bgez _ _ | .bltzal _ _ | .bgezal _ _ | .j _ | .jal _ | .lb _ _ _ | .lbu _ _ _
  | .lh _ _ _ | .lhu _ _ _ | .lw _ _ _ | .lwl _ _ _ | .lwr _ _ _ | .sb _ _ _ | .sh _ _ _
  | .sw _ _ _ | .swl _ _ _ | .swr _ _ _ | .lwc0 _ _ _ | .swc0 _ _ _ | .lwc1 _ _ _ | .swc1 _ _ _
  | .lwc2 _ _ _ | .swc2 _ _ _ | .lwc3 _ _ _ | .swc3 _ _ _ | .cop2 _ | .cop3 _ | .addD _ _ _
  | .addS _ _ _ | .divD _ _ _ | .divS _ _ _ | .mulD _ _ _ | .mulS _ _ _ | .subD _ _ _
  | .subS _ _ _ => 0x00000000

/-- What a word decodes to. -/
inductive Decoded
  /-- an instruction of the table -/
  | instr (i : Instr)
  /-- an assigned entry with a non-zero should-be-zero field, under `SBZ_POLICY` = `refuse` (rule R99) -/
  | nonZeroSbz (i : Instr)
  /-- an unassigned cell of the map, in the opcode space of coprocessor `z` if there is one (rule R100) -/
  | reserved (z : Option CopNum)
  deriving DecidableEq, Repr

/-- The decoder (rule R84), but for the tests of the machine's state (`usable(z)`), which the step makes. -/
def decode (c : Config) (w : Word) : Decoded :=
  match decodeRow c.fmtW w with
  | none => .reserved (copSpace w)
  | some i => if c.sbzPolicy = .refuse ∧ w &&& i.sbzMask ≠ 0 then .nonZeroSbz i else .instr i

/-! ## The encoder: the layouts of rule R82 -/

/-- Layouts `R`, `R-md`, `R-s`, `R-d`, `F3`, `F2`, `FC`: six fields. -/
def packR (op : BitVec 6) (rs rt rd sh : Reg) (fn : BitVec 6) : Word := op ++ rs ++ rt ++ rd ++ sh ++ fn
/-- Layouts `I`, `I-b`, `C-br`: a 16-bit immediate or offset. -/
def packI (op : BitVec 6) (rs rt : Reg) (imm : BitVec 16) : Word := op ++ rs ++ rt ++ imm
/-- Layout `J`. -/
def packJ (op : BitVec 6) (target : BitVec 26) : Word := op ++ target
/-- Layout `R-c`. -/
def packC (op : BitVec 6) (code : BitVec 20) (fn : BitVec 6) : Word := op ++ code ++ fn
/-- Layout `C-op`: bit 25 set, 25 bits free. -/
def packCo (op : BitVec 6) (cofun : BitVec 25) : Word := op ++ 1#1 ++ cofun

/-- The word of an instruction: its fields in place, its fixed fields as the tables of rules R86 to R92
have them, every should-be-zero and ignored bit zero. -/
def encode (fmtW : BitVec 5) : Instr → Word
  | .add rd rs rt => packR 0 rs rt rd 0 0x20
  | .addu rd rs rt => packR 0 rs rt rd 0 0x21
  | .and rd rs rt => packR 0 rs rt rd 0 0x24
  | .nor rd rs rt => packR 0 rs rt rd 0 0x27
  | .or rd rs rt => packR 0 rs rt rd 0 0x25
  | .sub rd rs rt => packR 0 rs rt rd 0 0x22
  | .subu rd rs rt => packR 0 rs rt rd 0 0x23
  | .xor rd rs rt => packR 0 rs rt rd 0 0x26
  | .slt rd rs rt => packR 0 rs rt rd 0 0x2a
  | .sltu rd rs rt => packR 0 rs rt rd 0 0x2b
  | .sllv rd rt rs => packR 0 rs rt rd 0 0x04
  | .srav rd rt rs => packR 0 rs rt rd 0 0x07
  | .srlv rd rt rs => packR 0 rs rt rd 0 0x06
  | .sll rd rt shamt => packR 0 0 rt rd shamt 0x00
  | .sra rd rt shamt => packR 0 0 rt rd shamt 0x03
  | .srl rd rt shamt => packR 0 0 rt rd shamt 0x02
  | .div rs rt => packR 0 rs rt 0 0 0x1a
  | .divu rs rt => packR 0 rs rt 0 0 0x1b
  | .mult rs rt => packR 0 rs rt 0 0 0x18
  | .multu rs rt => packR 0 rs rt 0 0 0x19
  | .jr rs => packR 0 rs 0 0 0 0x08
  | .jalr rs rd => packR 0 rs 0 rd 0 0x09
  | .mthi rs => packR 0 rs 0 0 0 0x11
  | .mtlo rs => packR 0 rs 0 0 0 0x13
  | .mfhi rd => packR 0 0 0 rd 0 0x10
  | .mflo rd => packR 0 0 0 rd 0 0x12
  | .syscall code => packC 0 code 0x0c
  | .brk code => packC 0 code 0x0d
  | .addi rt rs imm => packI 0x08 rs rt imm
  | .addiu rt rs imm => packI 0x09 rs rt imm
  | .andi rt rs imm => packI 0x0c rs rt imm
  | .ori rt rs imm => packI 0x0d rs rt imm
  | .xori rt rs imm => packI 0x0e rs rt imm
  | .lui rt imm => packI 0x0f 0 rt imm
  | .slti rt rs imm => packI 0x0a rs rt imm
  | .sltiu rt rs imm => packI 0x0b rs rt imm
  | .beq rs rt offset => packI 0x04 rs rt offset
  | .bne rs rt offset => packI 0x05 rs rt offset
  | .blez rs offset => packI 0x06 rs 0 offset
  | .bgtz rs offset => packI 0x07 rs 0 offset
  | .bltz rs offset => packI 0x01 rs 0 offset
  | .bgez rs offset => packI 0x01 rs 1 offset
  | .bltzal rs offset => packI 0x01 rs 16 offset
  | .bgezal rs offset => packI 0x01 rs 17 offset
  | .j target => packJ 0x02 target
  | .jal target => packJ 0x03 target
  | .lb rt base offset => packI 0x20 base rt offset
  | .lbu rt base offset => packI 0x24 base rt offset
  | .lh rt base offset => packI 0x21 base rt offset
  | .lhu rt base offset => packI 0x25 base rt offset
  | .lw rt base offset => packI 0x23 base rt offset
  | .lwl rt base offset => packI 0x22 base rt offset
  | .lwr rt base offset => packI 0x26 base rt offset
  | .sb rt base offset => packI 0x28 base rt offset
  | .sh rt base offset => packI 0x29 base rt offset
  | .sw rt base offset => packI 0x2b base rt offset
  | .swl rt base offset => packI 0x2a base rt offset
  | .swr rt base offset => packI 0x2e base rt offset
  | .lwc0 rt base offset => packI 0x30 base rt offset
  | .swc0 rt base offset => packI 0x38 base rt offset
  | .lwc1 rt base offset => packI 0x31 base rt offset
  | .swc1 rt base offset => packI 0x39 base rt offset
  | .lwc2 rt base offset => packI 0x32 base rt offset
  | .swc2 rt base offset => packI 0x3a base rt offset
  | .lwc3 rt base offset => packI 0x33 base rt offset
  | .swc3 rt base offset => packI 0x3b base rt offset
  | .mfc0 rt rd => packR 0x10 0 rt rd 0 0
  | .cfc0 rt rd => packR 0x10 2 rt rd 0 0
  | .mtc0 rt rd => packR 0x10 4 rt rd 0 0
  | .ctc0 rt rd => packR 0x10 6 rt rd 0 0
  | .bc0f offset => packI 0x10 8 0 offset
  | .bc0t offset => packI 0x10 8 1 offset
  | .mfc1 rt rd => packR 0x11 0 rt rd 0 0
  | .cfc1 rt rd => packR 0x11 2 rt rd 0 0
  | .mtc1 rt rd => packR 0x11 4 rt rd 0 0
  | .ctc1 rt rd => packR 0x11 6 rt rd 0 0
  | .bc1f offset => packI 0x11 8 0 offset
  | .bc1t offset => packI 0x11 8 1 offset
  | .mfc2 rt rd => packR 0x12 0 rt rd 0 0
  | .cfc2 rt rd => packR 0x12 2 rt rd 0 0
  | .mtc2 rt rd => packR 0x12 4 rt rd 0 0
  | .ctc2 rt rd => packR 0x12 6 rt rd 0 0
  | .bc2f offset => packI 0x12 8 0 offset
  | .bc2t offset => packI 0x12 8 1 offset
  | .mfc3 rt rd => packR 0x13 0 rt rd 0 0
  | .cfc3 rt rd => packR 0x13 2 rt rd 0 0
  | .mtc3 rt rd => packR 0x13 4 rt rd 0 0
  | .ctc3 rt rd => packR 0x13 6 rt rd 0 0
  | .bc3f offset => packI 0x13 8 0 offset
  | .bc3t offset => packI 0x13 8 1 offset
  | .tlbr => packR 0x10 16 0 0 0 0x01
  | .tlbwi => packR 0x10 16 0 0 0 0x02
  | .tlbwr => packR 0x10 16 0 0 0 0x06
  | .tlbp => packR 0x10 16 0 0 0 0x08
  | .rfe => packR 0x10 16 0 0 0 0x10
  | .cop2 cofun => packCo 0x12 cofun
  | .cop3 cofun => packCo 0x13 cofun
  | .absD fd fs => packR 0x11 17 0 fs fd 0x05
  | .absS fd fs => packR 0x11 16 0 fs fd 0x05
  | .addD fd fs ft => packR 0x11 17 ft fs fd 0x00
  | .addS fd fs ft => packR 0x11 16 ft fs fd 0x00
  | .cvtDS fd fs => packR 0x11 16 0 fs fd 0x21
  | .cvtDW fd fs => packR 0x11 fmtW 0 fs fd 0x21
  | .cvtSD fd fs => packR 0x11 17 0 fs fd 0x20
  | .cvtSW fd fs => packR 0x11 fmtW 0 fs fd 0x20
  | .cvtWD fd fs => packR 0x11 17 0 fs fd 0x24
  | .cvtWS fd fs => packR 0x11 16 0 fs fd 0x24
  | .divD fd fs ft => packR 0x11 17 ft fs fd 0x03
  | .divS fd fs ft => packR 0x11 16 ft fs fd 0x03
  | .movD fd fs => packR 0x11 17 0 fs fd 0x06
  | .movS fd fs => packR 0x11 16 0 fs fd 0x06
  | .mulD fd fs ft => packR 0x11 17 ft fs fd 0x02
  | .mulS fd fs ft => packR 0x11 16 ft fs fd 0x02
  | .negD fd fs => packR 0x11 17 0 fs fd 0x07
  | .negS fd fs => packR 0x11 16 0 fs fd 0x07
  | .subD fd fs ft => packR 0x11 17 ft fs fd 0x01
  | .subS fd fs ft => packR 0x11 16 ft fs fd 0x01
  | .cFS fs ft => packR 0x11 16 ft fs 0 0x30
  | .cFD fs ft => packR 0x11 17 ft fs 0 0x30
  | .cUnS fs ft => packR 0x11 16 ft fs 0 0x31
  | .cUnD fs ft => packR 0x11 17 ft fs 0 0x31
  | .cEqS fs ft => packR 0x11 16 ft fs 0 0x32
  | .cEqD fs ft => packR 0x11 17 ft fs 0 0x32
  | .cUeqS fs ft => packR 0x11 16 ft fs 0 0x33
  | .cUeqD fs ft => packR 0x11 17 ft fs 0 0x33
  | .cOltS fs ft => packR 0x11 16 ft fs 0 0x34
  | .cOltD fs ft => packR 0x11 17 ft fs 0 0x34
  | .cUltS fs ft => packR 0x11 16 ft fs 0 0x35
  | .cUltD fs ft => packR 0x11 17 ft fs 0 0x35
  | .cOleS fs ft => packR 0x11 16 ft fs 0 0x36
  | .cOleD fs ft => packR 0x11 17 ft fs 0 0x36
  | .cUleS fs ft => packR 0x11 16 ft fs 0 0x37
  | .cUleD fs ft => packR 0x11 17 ft fs 0 0x37
  | .cSfS fs ft => packR 0x11 16 ft fs 0 0x38
  | .cSfD fs ft => packR 0x11 17 ft fs 0 0x38
  | .cNgleS fs ft => packR 0x11 16 ft fs 0 0x39
  | .cNgleD fs ft => packR 0x11 17 ft fs 0 0x39
  | .cSeqS fs ft => packR 0x11 16 ft fs 0 0x3a
  | .cSeqD fs ft => packR 0x11 17 ft fs 0 0x3a
  | .cNglS fs ft => packR 0x11 16 ft fs 0 0x3b
  | .cNglD fs ft => packR 0x11 17 ft fs 0 0x3b
  | .cLtS fs ft => packR 0x11 16 ft fs 0 0x3c
  | .cLtD fs ft => packR 0x11 17 ft fs 0 0x3c
  | .cNgeS fs ft => packR 0x11 16 ft fs 0 0x3d
  | .cNgeD fs ft => packR 0x11 17 ft fs 0 0x3d
  | .cLeS fs ft => packR 0x11 16 ft fs 0 0x3e
  | .cLeD fs ft => packR 0x11 17 ft fs 0 0x3e
  | .cNgtS fs ft => packR 0x11 16 ft fs 0 0x3f
  | .cNgtD fs ft => packR 0x11 17 ft fs 0 0x3f

/-! ## The table's words, as bytes in memory -/

/-- The four bytes of a word in ascending addresses, in the byte order of the argument (rule R51). -/
def wordBytes (bigEndian : Bool) (w : Word) : List Byte :=
  let b := [w.extractLsb' 24 8, w.extractLsb' 16 8, w.extractLsb' 8 8, w.extractLsb' 0 8]
  if bigEndian then b else b.reverse

/-- The word four bytes in ascending addresses assemble to (rules R51, R53). -/
def assembleWord (bigEndian : Bool) (b0 b1 b2 b3 : Byte) : Word :=
  if bigEndian then b0 ++ b1 ++ b2 ++ b3 else b3 ++ b2 ++ b1 ++ b0

/-- The instruction word that the table's number `w` of `nbits` bits stands for: bits above `nbits` are 0. -/
def tableWord (nbits w : Nat) : Word := BitVec.ofNat 32 (w % 2 ^ nbits)

/-- What the decoder reads from the table's word laid out in memory, under the parameters of reset. -/
def decodeTableWord (nbits w : Nat) : Option Instr :=
  match wordBytes Config.atReset.bigEndian (tableWord nbits w) with
  | [b0, b1, b2, b3] =>
    match decode Config.atReset (assembleWord Config.atReset.bigEndian b0 b1 b2 b3) with
    | .instr i => some i
    | .nonZeroSbz _ | .reserved _ => none
  | _ => none

end Sys2Proof
end

