-- ==== Sys2Proof/Machine/State.lean ====
section
/-! DEFINITION. The machine's state (`10_state.md`), the reasons a step can stop, and the state right after
reset (`70_reset_and_hazards.md` rule R420). -/

namespace Sys2Proof.Machine

/-- Memory: the listed bytes, addresses strictly rising, none equal to what an unlisted address reads as
(rule R41; the form is `Memory.wf` of Machine/Memory.lean). -/
abbrev Memory := List Host.Cell

/-- The exceptions of `60_exceptions.md` rule R370, each with the info it records. `refill` of a TLB
exception: no entry matched (rule R379). -/
inductive Exc
  | interrupt
  | tlbMod (va : Word)
  | tlbLoad (va : Word) (refill : Bool)
  | tlbStore (va : Word) (refill : Bool)
  | addressErrorLoad (va : Word)
  | addressErrorStore (va : Word)
  | busErrorFetch
  | busErrorData
  | syscall
  | breakpoint
  | reservedInstruction
  | coprocessorUnusable (z : CopNum)
  | overflow
  deriving DecidableEq, Repr

/-- The `outcome` of rule R43, but for `fault(reason)` and `refused(reason)`, which are the host's outcomes
(notes/assumptions/9.md). -/
inductive RunOutcome
  | running
  /-- an exception was taken when `TRAP_MODEL` = `fault` -/
  | stopped (e : Exc)
  deriving DecidableEq, Repr

/-- `load_pending` of rule R42. -/
inductive Pending
  | none
  | gpr (r : Reg)
  | fpr (r : Reg)
  deriving DecidableEq, Repr

/-- One entry of the translation buffer: `hi` has the EntryHi layout, `lo` the EntryLo layout (rule R40). -/
structure TlbEntry where
  hi : Word
  lo : Word
  deriving DecidableEq, Repr

/-- Why a step ends in a fault: behaviour the hardware leaves undefined and the spec gives no value
(rule R43). Every one is safe: nothing is claimed of what the hardware does there. -/
inductive Fault
  /-- raised by the step: a branch or jump in a branch delay slot (rule R28); safe -/
  | branchInDelaySlot
  /-- raised by the step: the instruction reads the register the one before it loaded (rule R431); safe -/
  | loadUseHazard
  /-- raised by the step: `hi`/`lo` written within two instructions of `mfhi`/`mflo` (rule R432); safe -/
  | hiLoHazard
  /-- raised by the step: `bc1t`/`bc1f` directly after a compare (rule R433); safe -/
  | fccHazard
  /-- raised by the fetch of a byte stored since launch (rule R67); safe -/
  | staleFetch
  /-- raised by translation and by `tlbp`: two entries match (rules R63, R360); safe -/
  | tlbMultipleMatch
  /-- raised by the step of a state whose `outcome` is not `running`: it has no step (rule R43); safe -/
  | runEnded
  deriving DecidableEq, Repr

/-- Why a word or operation is given no meaning: the closed list of rule R43. Every one is safe: no claim
is made of what the hardware does there. -/
inductive Refusal
  /-- raised by exec's arm of an instruction the model has not reached; safe -/
  | notModelled (mnemonic : String)
  /-- raised by the decoder's check of should-be-zero fields (rule R99); safe -/
  | nonZeroSbz
  /-- raised by a double-precision operation on an odd register (rules R31, R292); safe -/
  | oddDoubleRegister
  /-- raised by every op 0x10 word when `TRAP_MODEL` = `fault` (rule R355); safe -/
  | cop0InFaultModel
  /-- raised by `lwc0` and `swc0`, in both trap models (rule R355); safe -/
  | cop0LoadStore
  /-- raised by `jalr` with `rd` = `rs`, `bltzal`/`bgezal` with `rs` = 31 (rules R216, R201, R198); safe -/
  | linkRegisterClash
  /-- raised by `cfc1`/`ctc1` of a control register that does not exist, by `ctc1` to FCR0, and by a `ctc1`
  that sets an enable bit (rules R33, R278, R279); safe -/
  | fpControlRegister
  /-- raised by `cop2`/`cop3` when that coprocessor is present and usable (rule R361); safe -/
  | coprocessorOperation
  /-- raised by `mfc0`/`mtc0` of a reserved number and by `mtc0` setting Status.RE, SwC or IsC (rules R36,
  R37); safe -/
  | cp0Reserved
  /-- raised by `tlbr`/`tlbwi` with Index.Index not below `TLB_ENTRIES` (rules R357, R358), and by `tlbwr`
  on a buffer that has no entry from 8 up (notes/assumptions/13.md); safe -/
  | tlbIndexRange
  deriving DecidableEq, Repr

/-- What ends an instruction before its effect: an exception to raise, a fault, a refusal. -/
inductive Stop
  | exc (e : Exc)
  | fault (r : Fault)
  | refuse (r : Refusal)
  deriving DecidableEq, Repr

/-- The state of the machine: every piece of state the spec names (INVENTORY.md), the run's parameters, and
two fields of the model's own, `intPins` and `draws`. -/
structure State where
  /-- the parameters of rule R7; no step changes them -/
  cfg : Config
  /-- general registers x[0..31] (R20); entry 0 is never written (R21) -/
  gpr : Vector Word 32
  /-- the multiply/divide registers (R24) -/
  hi : Word
  lo : Word
  /-- the address of the instruction being executed (R25) -/
  pc : Word
  /-- the address of the instruction after it, and whether it sits in a delay slot, when `DELAY_SLOTS` (R26) -/
  npc : Word
  inDelay : Bool
  /-- floating-point registers f[0..31] (R30) -/
  fpr : Vector Word 32
  /-- the floating-point condition flag, FCR31 bit 23 (R32) -/
  fcc : Bool
  /-- FCR31.RM (R33) -/
  rm : BitVec 2
  /-- FCR0 (R33), a constant of the run -/
  fcr0 : Word
  /-- registers and control registers of coprocessors 2 and 3, when present (R34) -/
  cpr2 : Vector Word 32
  ccr2 : Vector Word 32
  cpr3 : Vector Word 32
  ccr3 : Vector Word 32
  /-- coprocessor 0 (R36 to R40) -/
  index : Word
  /-- the Random field, bits 13:8 of register 1: the draw the next use reads (R40) -/
  random : BitVec 6
  entryLo : Word
  context : Word
  badVAddr : Word
  entryHi : Word
  status : Word
  /-- Cause but for IP[7:2], which are the live pins (R38) -/
  cause : Word
  epc : Word
  /-- PRId (R36), a constant of the run -/
  prid : Word
  /-- the translation buffer; its length is `TLB_ENTRIES` (R40) -/
  tlb : List TlbEntry
  /-- memory (R41); physical addresses when `TRAP_MODEL` = `mips1` -/
  mem : Memory
  /-- hidden state (R42) -/
  loadPending : Pending
  fccFresh : Bool
  hiloAge : Nat
  dirty : List Nat
  outcome : RunOutcome
  /-- the model's own: the levels of the six interrupt inputs this step sees (R390) -/
  intPins : BitVec 6
  /-- the model's own: how many draws have been made (R10) -/
  draws : Nat
  deriving DecidableEq, Repr

/-- A step's three outcomes. -/
abbrev Result := Host.Outcome State Fault Refusal

/-- The translation buffer at reset: 64 entries (R7) that match no mapped address and no two of which match
one address, as R424 (3) has boot software write it. DESIGN CHOICE, notes/assumptions/4.md (unsafe). -/
def resetTlb : List TlbEntry :=
  (List.range 64).map fun i => ⟨0x80000000 + 4096 * BitVec.ofNat 32 i, 0⟩

/-- The machine right after reset (rule R420): `pc` = 0xBFC00000, Status.BEV = 1, TS = SwC = KUc = IEc = 0,
Random = 63, the launch values of R45. What R45 leaves "any" is 0: DESIGN CHOICE,
notes/assumptions/3.md (unsafe: no claim may rest on those values). -/
def State.reset : State where
  cfg := Config.atReset
  gpr := Vector.replicate 32 0
  hi := 0
  lo := 0
  pc := 0xBFC00000
  npc := 0xBFC00004
  inDelay := false
  fpr := Vector.replicate 32 0
  fcc := false
  rm := 0
  fcr0 := 0
  cpr2 := Vector.replicate 32 0
  ccr2 := Vector.replicate 32 0
  cpr3 := Vector.replicate 32 0
  ccr3 := Vector.replicate 32 0
  index := 0
  random := 63
  entryLo := 0
  context := 0
  badVAddr := 0
  entryHi := 0
  status := 0x00400000
  cause := 0
  epc := 0
  prid := 0
  tlb := resetTlb
  mem := []
  loadPending := .none
  fccFresh := false
  hiloAge := 2
  dirty := []
  outcome := .running
  intPins := 0
  draws := 0

/-- A launch state of the `fault` model (rule R421), for parameters `c`, `ENTRY` and a launch image; the
registers R421 leaves "any" are those of reset, and `State.isLaunch` (Safety.lean) admits every value. -/
def State.launch (c : Config) (entry : Word) (image : Memory) : State :=
  { State.reset with
    cfg := { c with trapModel := .fault }
    pc := entry
    npc := entry + 4
    mem := image }

end Sys2Proof.Machine
end

