-- ==== Sys2Proof/Machine/Flags.lean ====
section
/-! DEFINITION. The CPU has no flags (`10_state.md` rule R29): what stands here is signed overflow
(`40_arith_logic.md` rule R120) and the condition a floating-point compare writes to `fcc`
(`45_floating_point.md` rule R320). -/

namespace Sys2Proof.Machine

/-- The integer lies outside the signed 32-bit range (rule R120). -/
def outsideSigned32 (v : Int) : Bool := v < -2147483648 || 2147483647 < v

/-- Signed overflow of `a + b` (rule R120). -/
def addOverflows (a b : Word) : Bool := outsideSigned32 (a.toInt + b.toInt)

/-- Signed overflow of `a - b` (rule R120). -/
def subOverflows (a b : Word) : Bool := outsideSigned32 (a.toInt - b.toInt)

/-- The 32-bit value 1 or 0 a comparison writes (rule R170). -/
def boolWord (b : Bool) : Word := if b then 1 else 0

/-- The value of `fcc` after `c.cond.fmt` (rule R320). -/
def compareCondition (cond : BitVec 4) (r : FpRelation) : Bool :=
  (cond.getLsbD 2 && r.less) || (cond.getLsbD 1 && r.equal) || (cond.getLsbD 0 && r.unordered)

end Sys2Proof.Machine
end

