-- ==== Sys2Proof/Machine/Float.lean ====
section
/-! DEFINITION. The parameter `FP` at its default, `ieee754`: IEEE 754 arithmetic on binary32 and binary64, computed
exactly on rationals and rounded once (`45_floating_point.md` rules R291, R293, decision D21;
notes/assumptions/20.md). A result `none` is `draw(NaN)`. -/

namespace Sys2Proof.Machine

/-- A binary format: widths of the exponent and fraction fields (rule R291). -/
structure Format where
  expBits : Nat
  fracBits : Nat
  deriving DecidableEq, Repr

/-- IEEE 754 binary32. -/
def Format.single : Format := ⟨8, 23⟩

/-- IEEE 754 binary64. -/
def Format.double : Format := ⟨11, 52⟩

/-- RM: 0 nearest-even, 1 toward zero, 2 toward plus infinity, 3 toward minus infinity (rule R33). -/
def RoundMode.ofBits (b : BitVec 2) : RoundMode :=
  if b = 0 then .nearestEven else if b = 1 then .towardZero else if b = 2 then .up else .down

/-- The extended-real value of a bit pattern, a signed zero being a `rat` with numerator 0: `val32`,
`val64` of rule R291. The denominator of a `rat` is never 0. -/
inductive FVal
  | nan
  | inf (neg : Bool)
  | rat (neg : Bool) (num den : Nat)
  deriving DecidableEq, Repr

/-- The numerator with its sign. -/
def signedNat (neg : Bool) (n : Nat) : Int := if neg then -(n : Int) else n

/-- The exponent bias. -/
def Format.bias (f : Format) : Nat := 2 ^ (f.expBits - 1) - 1

/-- Values are counted in units of 2^-(bias + fracBits): a pattern with biased exponent `e` and significand
`m` is `m * 2^e` of them, `e` taken as 1 for a subnormal. -/
def Format.unit (f : Format) : Nat := 2 ^ (f.bias + f.fracBits)

/-- The bits of positive infinity; a finite magnitude has smaller bits. -/
def Format.infBits (f : Format) : Nat := (2 ^ f.expBits - 1) * 2 ^ f.fracBits

/-- The value of a bit pattern (rule R291). -/
def Format.value (f : Format) (bits : Nat) : FVal :=
  let frac := bits % 2 ^ f.fracBits
  let exp := bits / 2 ^ f.fracBits % 2 ^ f.expBits
  let neg : Bool := bits / 2 ^ (f.fracBits + f.expBits) % 2 = 1
  if exp = 2 ^ f.expBits - 1 then (if frac = 0 then .inf neg else .nan)
  else if exp = 0 then .rat neg (frac * 2) f.unit
  else .rat neg ((frac + 2 ^ f.fracBits) * 2 ^ exp) f.unit

/-- Whether the quotient `q` with remainder `r` of divisor `d` is rounded away from zero. -/
def roundsAway (rm : RoundMode) (neg : Bool) (q r d : Nat) : Bool :=
  match rm with
  | .nearestEven => d < 2 * r || (2 * r = d && q % 2 = 1)
  | .towardZero => false
  | .up => r ≠ 0 && !neg
  | .down => r ≠ 0 && neg

/-- The natural number nearest `n / d` in the sense of the rounding mode. -/
def roundQuotient (rm : RoundMode) (neg : Bool) (n d : Nat) : Nat :=
  n / d + (if roundsAway rm neg (n / d) (n % d) d then 1 else 0)

/-- Whether a magnitude too large for the format becomes infinity rather than the largest finite number. -/
def overflowsToInf (rm : RoundMode) (neg : Bool) : Bool :=
  match rm with
  | .nearestEven => true
  | .towardZero => false
  | .up => !neg
  | .down => neg

/-- The magnitude bits of the rational `n / d` rounded to the format: gradual underflow, overflow as the
mode prescribes (rule R291). -/
def Format.roundMagnitude (f : Format) (rm : RoundMode) (neg : Bool) (n d : Nat) : Nat :=
  let scaled := n * f.unit
  let e := max 1 (Nat.log2 (scaled / d) - f.fracBits)
  let bits := (e - 1) * 2 ^ f.fracBits + roundQuotient rm neg scaled (d * 2 ^ e)
  if bits < f.infBits then bits
  else if overflowsToInf rm neg then f.infBits else f.infBits - 1

/-- The sign bit in place. -/
def Format.signBit (f : Format) (neg : Bool) : Nat := if neg then 2 ^ (f.fracBits + f.expBits) else 0

/-- The bit pattern of a value rounded to the format, `rnd32` and `rnd64` of rule R291; `none` is a NaN. -/
def Format.round (f : Format) (rm : RoundMode) : FVal → Option Nat
  | .nan => none
  | .inf neg => some (f.signBit neg + f.infBits)
  | .rat neg n d => some (f.signBit neg + f.roundMagnitude rm neg n d)

/-- The exact sum, with the sign of an exact zero sum (rules R291, R293). -/
def FVal.add (rm : RoundMode) : FVal → FVal → FVal
  | .nan, _ => .nan
  | .inf _, .nan => .nan
  | .inf p, .inf q => if p = q then .inf p else .nan
  | .inf p, .rat _ _ _ => .inf p
  | .rat _ _ _, .nan => .nan
  | .rat _ _ _, .inf q => .inf q
  | .rat p a b, .rat q c d =>
    let n := signedNat p a * d + signedNat q c * b
    if n = 0 then .rat (if p = q then p else rm = .down) 0 1
    else .rat (n < 0) n.natAbs (b * d)

/-- The value with its sign reversed. -/
def FVal.neg : FVal → FVal
  | .nan => .nan
  | .inf p => .inf (!p)
  | .rat p a b => .rat (!p) a b

/-- The exact product (rule R293: zero times infinity is invalid). -/
def FVal.mul : FVal → FVal → FVal
  | .nan, _ => .nan
  | .inf _, .nan => .nan
  | .inf p, .inf q => .inf (p ^^ q)
  | .inf p, .rat q c _ => if c = 0 then .nan else .inf (p ^^ q)
  | .rat _ _ _, .nan => .nan
  | .rat p a _, .inf q => if a = 0 then .nan else .inf (p ^^ q)
  | .rat p a b, .rat q c d => .rat (p ^^ q) (a * c) (b * d)

/-- The exact quotient (rule R293: 0/0 and infinity/infinity are invalid, x/0 is an infinity). -/
def FVal.div : FVal → FVal → FVal
  | .nan, _ => .nan
  | .inf _, .nan => .nan
  | .inf _, .inf _ => .nan
  | .inf p, .rat q _ _ => .inf (p ^^ q)
  | .rat _ _ _, .nan => .nan
  | .rat p _ _, .inf q => .rat (p ^^ q) 0 1
  | .rat p a b, .rat q c d =>
    if c = 0 then (if a = 0 then .nan else .inf (p ^^ q)) else .rat (p ^^ q) (a * d) (b * c)

/-- `a` is a NaN. -/
def FVal.isNaN : FVal → Bool
  | .nan => true
  | .inf _ => false
  | .rat _ _ _ => false

/-- `a < b`, false of a NaN (rule R320). -/
def FVal.lt : FVal → FVal → Bool
  | .nan, _ => false
  | .inf _, .nan => false
  | .inf p, .inf q => p && !q
  | .inf p, .rat _ _ _ => p
  | .rat _ _ _, .nan => false
  | .rat _ _ _, .inf q => !q
  | .rat p a b, .rat q c d => signedNat p a * d < signedNat q c * b

/-- `a = b`, `+0` equal to `-0`, false of a NaN (rule R320). -/
def FVal.eq : FVal → FVal → Bool
  | .nan, _ => false
  | .inf _, .nan => false
  | .inf p, .inf q => p = q
  | .inf _, .rat _ _ _ => false
  | .rat _ _ _, .nan => false
  | .rat _ _ _, .inf _ => false
  | .rat p a b, .rat q c d => signedNat p a * d = signedNat q c * b

/-- What the comparison of two values finds (rule R320). -/
def FVal.relation (a b : FVal) : FpRelation :=
  ⟨FVal.lt a b, FVal.eq a b, FVal.isNaN a || FVal.isNaN b⟩

/-- The value rounded to an integer under the mode (rule R308); `none` for a NaN or an infinity. -/
def FVal.roundInt (rm : RoundMode) : FVal → Option Int
  | .nan => none
  | .inf _ => none
  | .rat neg n d => some (signedNat neg (roundQuotient rm neg n d))

/-- A signed integer as a value (rules R305, R307). -/
def FVal.ofInt (i : Int) : FVal := .rat (i < 0) i.natAbs 1

/-- `val32`. -/
def val32 (b : Word) : FVal := Format.single.value b.toNat

/-- `val64`. -/
def val64 (b : DWord) : FVal := Format.double.value b.toNat

/-- `rnd32`; `none` is `draw(NaN)`. -/
def rnd32 (rm : RoundMode) (v : FVal) : Option Word := (Format.single.round rm v).map (BitVec.ofNat 32)

/-- `rnd64`; `none` is `draw(NaN)`. -/
def rnd64 (rm : RoundMode) (v : FVal) : Option DWord := (Format.double.round rm v).map (BitVec.ofNat 64)

/-- The word of `cvt.w.fmt` (rule R308); `none` is a 32-bit draw. -/
def toWord (rm : RoundMode) (v : FVal) : Option Word :=
  match FVal.roundInt rm v with
  | none => none
  | some i => if outsideSigned32 i then none else some (BitVec.ofInt 32 i)

/-- `abs.s` (rule R301): `none` for a NaN. -/
def abs32 (b : Word) : Option Word := if (val32 b).isNaN then none else some (0#1 ++ b.extractLsb' 0 31)

/-- `abs.d` (rule R300): `none` for a NaN. -/
def abs64 (b : DWord) : Option DWord := if (val64 b).isNaN then none else some (0#1 ++ b.extractLsb' 0 63)

/-- `neg.s` (rule R319): `none` for a NaN. -/
def neg32 (b : Word) : Option Word :=
  if (val32 b).isNaN then none else some (~~~(b.extractLsb' 31 1) ++ b.extractLsb' 0 31)

/-- `neg.d` (rule R318): `none` for a NaN. -/
def neg64 (b : DWord) : Option DWord :=
  if (val64 b).isNaN then none else some (~~~(b.extractLsb' 63 1) ++ b.extractLsb' 0 63)

/-- `FP` at its default: each result is computed exactly and rounded once under the mode (rules R291, R293,
R300 to R311, R316 to R320, R342, R343). -/
def ieee754 : FpFunctions where
  add32 rm a b := rnd32 rm (FVal.add rm (val32 a) (val32 b))
  sub32 rm a b := rnd32 rm (FVal.add rm (val32 a) (FVal.neg (val32 b)))
  mul32 rm a b := rnd32 rm (FVal.mul (val32 a) (val32 b))
  div32 rm a b := rnd32 rm (FVal.div (val32 a) (val32 b))
  abs32 := abs32
  neg32 := neg32
  add64 rm a b := rnd64 rm (FVal.add rm (val64 a) (val64 b))
  sub64 rm a b := rnd64 rm (FVal.add rm (val64 a) (FVal.neg (val64 b)))
  mul64 rm a b := rnd64 rm (FVal.mul (val64 a) (val64 b))
  div64 rm a b := rnd64 rm (FVal.div (val64 a) (val64 b))
  abs64 := abs64
  neg64 := neg64
  singleOfDouble rm a := rnd32 rm (val64 a)
  singleOfWord rm a := rnd32 rm (FVal.ofInt a.toInt)
  doubleOfSingle rm a := rnd64 rm (val32 a)
  doubleOfWord rm a := rnd64 rm (FVal.ofInt a.toInt)
  wordOfSingle rm a := toWord rm (val32 a)
  wordOfDouble rm a := toWord rm (val64 a)
  relation32 a b := FVal.relation (val32 a) (val32 b)
  relation64 a b := FVal.relation (val64 a) (val64 b)

/-- A fraction field that is not zero: the draw's, with 1 for 0. -/
def nonZeroFraction {n : Nat} (v : BitVec n) : BitVec n := if v = 0 then 1 else v

/-- The single-precision NaN of a draw: its sign and its fraction, every NaN being some draw's (rule R293). -/
def nan32 (free : DWord) : Word :=
  free.extractLsb' 63 1 ++ 0xFF#8 ++ nonZeroFraction (free.extractLsb' 0 23)

/-- The double-precision NaN of a draw (rule R293). -/
def nan64 (free : DWord) : DWord :=
  free.extractLsb' 63 1 ++ 0x7FF#11 ++ nonZeroFraction (free.extractLsb' 0 52)

end Sys2Proof.Machine
end

