-- ==== Sys2Proof/Machine/Memory.lean ====
section
/-! DEFINITION. Memory as a canonical list of cells, the set `dirty` as a canonical list of addresses, and
the byte order of halfwords (`20_memory.md` rules R51, R59, R67). -/

namespace Sys2Proof.Machine

/-- What an unlisted address reads as. The spec's launch image is "any" (rule R45): DESIGN CHOICE 0,
notes/assumptions/5.md (unsafe). -/
def unlistedByte : Byte := 0

/-- The byte at an address. -/
def Memory.read : Memory → Nat → Byte
  | [], _ => unlistedByte
  | (b, v) :: m, a => if a = b then v else Memory.read m a

/-- The memory with one byte replaced, in canonical form. -/
def Memory.write : Memory → Nat → Byte → Memory
  | [], a, v => if v = unlistedByte then [] else [(a, v)]
  | (b, w) :: m, a, v =>
    if a < b then (if v = unlistedByte then (b, w) :: m else (a, v) :: (b, w) :: m)
    else if a = b then (if v = unlistedByte then m else (a, v) :: m)
    else (b, w) :: Memory.write m a v

/-- The bytes of a list of cells written one after another. -/
def Memory.writeCells (m : Memory) (cells : List Host.Cell) : Memory :=
  cells.foldl (fun m c => Memory.write m c.1 c.2) m

/-- The canonical form: addresses strictly rising and below 2^32, no entry that an unlisted address reads
as anyway. -/
abbrev Memory.wf (m : Memory) : Prop :=
  m.Pairwise (fun c d => c.1 < d.1) ∧ ∀ c ∈ m, c.2 ≠ unlistedByte ∧ c.1 < 4294967296

/-- The set of addresses with one address added (rule R67). -/
def addrInsert : List Nat → Nat → List Nat
  | [], a => [a]
  | b :: l, a => if a < b then a :: b :: l else if a = b then b :: l else b :: addrInsert l a

/-- The addresses of a list of cells added to a set of addresses. -/
def addrInsertCells (l : List Nat) (cells : List Host.Cell) : List Nat :=
  cells.foldl (fun l c => addrInsert l c.1) l

/-- The canonical form of a set of addresses. -/
abbrev addrWf (l : List Nat) : Prop :=
  l.Pairwise (· < ·) ∧ ∀ a ∈ l, a < 4294967296

/-- The cells of bytes laid out from an address upwards. -/
def cellsAt (a : Nat) : List Byte → List Host.Cell
  | [] => []
  | b :: bs => (a, b) :: cellsAt (a + 1) bs

/-- The two bytes of a halfword in ascending addresses (rule R51). -/
def halfBytes (bigEndian : Bool) (h : Half) : List Byte :=
  if bigEndian then [h.extractLsb' 8 8, h.extractLsb' 0 8] else [h.extractLsb' 0 8, h.extractLsb' 8 8]

/-- The halfword two bytes in ascending addresses assemble to (rule R51). -/
def assembleHalf (bigEndian : Bool) (b0 b1 : Byte) : Half :=
  if bigEndian then b0 ++ b1 else b1 ++ b0

end Sys2Proof.Machine
end

