-- ==== Sys2Proof/Machine/Operands.lean ====
section
/-! DEFINITION. Operand forms: immediates, branch and jump targets, shift distances, register bytes and the
byte lanes of `lwl`, `lwr`, `swl`, `swr` (`30_encoding.md` rules R93 to R96, `43_load_store.md` rule R232). -/

namespace Sys2Proof.Machine

/-- `sext_32(imm)` (rule R93). -/
def sext (imm : BitVec 16) : Word := imm.signExtend 32

/-- `zext_32(imm)` (rule R93). -/
def zext (imm : BitVec 16) : Word := imm.setWidth 32

/-- `imm || 0^16` (rules R93, R171). -/
def upper (imm : BitVec 16) : Word := imm ++ 0#16

/-- `BranchTarget` = `(pc + 4) + sext_32(Offset || 00)` (rule R190). -/
def branchTarget (pc : Word) (offset : BitVec 16) : Word := pc + 4 + (offset ++ 0#2).signExtend 32

/-- `JumpTarget` = `(pc + 4)[31:28] || target || 00` (rule R191). -/
def jumpTarget (pc : Word) (target : BitVec 26) : Word := (pc + 4).extractLsb' 28 4 ++ target ++ 0#2

/-- The distance of a variable shift: the low five bits (rule R147). -/
def shiftDistance (v : Word) : Nat := (v.extractLsb' 0 5).toNat

/-- Byte `k` of a register, 3 the most significant (rule R232). -/
def regByte (v : Word) (k : Nat) : Byte := v.extractLsb' (8 * k) 8

/-- The byte lanes of rule R232: which byte of the aligned word, by its offset 0 to 3, a left or right
transfer at an address with low bits `b` pairs with byte `k` of the register, if any. -/
def lane (left bigEndian : Bool) (b k : Nat) : Option Nat :=
  match left, bigEndian with
  | true, true => if b ≤ k then some (b + 3 - k) else none
  | true, false => if 3 ≤ b + k then some (b + k - 3) else none
  | false, true => if k ≤ b then some (b - k) else none
  | false, false => if b + k ≤ 3 then some (b + k) else none

/-- The offsets of the bytes a left or right transfer touches. -/
def laneOffsets (left bigEndian : Bool) (b : Nat) : List Nat :=
  [3, 2, 1, 0].filterMap (lane left bigEndian b)

/-- The register a left or right load leaves: `old` with the paired bytes replaced by those of memory,
`byte o` the one at offset `o` of the aligned word (rule R232). -/
def laneMerge (left bigEndian : Bool) (b : Nat) (old : Word) (byte : Nat → Byte) : Word :=
  let pick k := match lane left bigEndian b k with
    | some o => byte o
    | none => regByte old k
  pick 3 ++ pick 2 ++ pick 1 ++ pick 0

/-- The cells a left or right store writes into the aligned word at `base` (rule R232). -/
def laneCells (left bigEndian : Bool) (b : Nat) (base : Nat) (v : Word) : List Host.Cell :=
  [3, 2, 1, 0].filterMap fun k => (lane left bigEndian b k).map fun o => (base + o, regByte v k)

end Sys2Proof.Machine
end

