-- ==== Sys2Proof/Machine/Ops.lean ====
section
/-! DEFINITION. The named operations over registers, coprocessor 0, memory and control, with the taking of
an exception (`60_exceptions.md` rules R380, R381) and the return from one (rule R356). -/

namespace Sys2Proof.Machine

/-! ## Registers -/

/-- A register of a file of 32. -/
def regGet (v : Vector Word 32) (r : Reg) : Word := v[r.toNat]'r.isLt

/-- A file of 32 with one register replaced. -/
def regSet (v : Vector Word 32) (r : Reg) (w : Word) : Vector Word 32 := v.set r.toNat w r.isLt

/-- `x[r]` (rules R10, R21): register 0 reads 0. -/
def State.x (s : State) (r : Reg) : Word := if r = 0 then 0 else regGet s.gpr r

/-- `x[r] <- v` (rules R10, R21): a write to register 0 is discarded. -/
def State.setX (s : State) (r : Reg) (v : Word) : State :=
  if r = 0 then s else { s with gpr := regSet s.gpr r v }

/-- `f[r]` (rule R30). -/
def State.f (s : State) (r : Reg) : Word := regGet s.fpr r

/-- `f[r] <- v` (rule R30). -/
def State.setF (s : State) (r : Reg) (v : Word) : State := { s with fpr := regSet s.fpr r v }

/-- `d[r]` = `f[r+1] || f[r]` (rule R31). -/
def State.d (s : State) (r : Reg) : DWord := s.f (r + 1) ++ s.f r

/-- `d[r] <- v` (rule R31). -/
def State.setD (s : State) (r : Reg) (v : DWord) : State :=
  (s.setF r (v.extractLsb' 0 32)).setF (r + 1) (v.extractLsb' 32 32)

/-- The rounding mode in force (rule R33). -/
def State.roundMode (s : State) : RoundMode := RoundMode.ofBits s.rm

/-- The functions the parameter `FP` is in this run (rule R7). -/
def State.fp (s : State) : FpFunctions :=
  match s.cfg.fp with
  | .ieee754 => ieee754
  | .given n => Config.givenFp n

/-- The FCR31 image `cfc1` reads: `C` at bit 23, RM at bits 1:0, the cause and flag bits drawn, the rest 0
(rules R33, R278). -/
def fcr31Image (fcc : Bool) (rm : BitVec 2) (free : Word) : Word :=
  0#8 ++ BitVec.ofBool fcc ++ 0#5 ++ free.extractLsb' 12 6 ++ 0#5 ++ free.extractLsb' 2 5 ++ rm

/-! ## Coprocessor 0 (rules R36 to R40) -/

/-- The bits of Status the model keeps (rule R37): CU, BEV, PE, CM, PZ, IM and the KU/IE stack. RE, SwC and
IsC are never set, TS is 0 (notes/assumptions/22.md). -/
def statusMask : Word := 0xF05CFF3F

/-- The bits of Status a `mtc0` is refused for setting: RE, SwC, IsC (rule R37). -/
def statusRefused : Word := 0x02030000

/-- The bits of Cause that are stored: BD, CE, IP[1:0], ExcCode (rule R38). -/
def causeMask : Word := 0xB000037C

/-- The bits of Cause a `mtc0` writes: IP[1:0] (rule R38). -/
def causeWritable : Word := 0x00000300

/-- The bits of Index (rule R40). -/
def indexMask : Word := 0x80003F00

/-- The bits of EntryLo (rule R40). -/
def entryLoMask : Word := 0xFFFFFF00

/-- The bits of EntryHi (rule R40). -/
def entryHiMask : Word := 0xFFFFFFC0

/-- The bits of Context (rule R40). -/
def contextMask : Word := 0xFFFFFFFC

/-- The bits of Context a `mtc0` writes: PTEBase (rules R36, R40). -/
def contextWritable : Word := 0xFFE00000

/-- `old` with the bits of `mask` taken from `new`. -/
def insertBits (mask old new : Word) : Word := (old &&& ~~~mask) ||| (new &&& mask)

/-- Cause.IP[7:0]: six live inputs over two software bits (rules R38, R390). -/
def State.pendingInterrupts (s : State) : BitVec 8 := s.intPins ++ s.cause.extractLsb' 8 2

/-- Cause as read: the stored bits and the live IP[7:2] (rule R38). -/
def State.causeImage (s : State) : Word :=
  (s.cause &&& causeMask) ||| (0#16 ++ s.intPins ++ 0#10)

/-- Random as read: the field at bits 13:8 (rule R40). -/
def randomImage (r : BitVec 6) : Word := 0#18 ++ r ++ 0#8

/-- Register `rd` of coprocessor 0 as `mfc0` reads it, fields listed as 0 reading 0 (rules R36 to R40);
`none` for a reserved number. -/
def State.cp0Read (s : State) (rd : Reg) : Option Word :=
  if rd = 0 then some (s.index &&& indexMask)
  else if rd = 1 then some (randomImage s.random)
  else if rd = 2 then some (s.entryLo &&& entryLoMask)
  else if rd = 4 then some (s.context &&& contextMask)
  else if rd = 8 then some s.badVAddr
  else if rd = 10 then some (s.entryHi &&& entryHiMask)
  else if rd = 12 then some (s.status &&& statusMask)
  else if rd = 13 then some s.causeImage
  else if rd = 14 then some s.epc
  else if rd = 15 then some s.prid
  else none

/-- Register `rd` of coprocessor 0 as `mtc0` writes it (rules R36 to R40, R280): read-only registers and
fields discard the write; `none` for a reserved number and for a Status value the model refuses. -/
def State.cp0Write (s : State) (rd : Reg) (v : Word) : Option State :=
  if rd = 0 then some { s with index := insertBits indexMask s.index v }
  else if rd = 2 then some { s with entryLo := insertBits entryLoMask s.entryLo v }
  else if rd = 4 then some { s with context := insertBits contextWritable s.context v }
  else if rd = 10 then some { s with entryHi := insertBits entryHiMask s.entryHi v }
  else if rd = 12 then
    (if v &&& statusRefused ≠ 0 then none else some { s with status := insertBits statusMask s.status v })
  else if rd = 13 then some { s with cause := insertBits causeWritable s.cause v }
  else if rd = 1 ∨ rd = 8 ∨ rd = 14 ∨ rd = 15 then some s
  else none

/-- Status.KUc: user mode (rules R37, R400). -/
def State.userMode (s : State) : Bool := s.status.getLsbD 1

/-- Status.IEc (rule R37). -/
def State.interruptsEnabled (s : State) : Bool := s.status.getLsbD 0

/-- Status.BEV (rule R37). -/
def State.bev (s : State) : Bool := s.status.getLsbD 22

/-- Status.CUz (rule R37): bits 31 to 28 for z = 3 to 0. -/
def State.cuBit (s : State) (z : CopNum) : Bool := s.status.getLsbD (28 + z.toNat)

/-- The push of the KU/IE stack at trap entry: kernel mode, interrupts off (rule R381). -/
def statusPush (st : Word) : Word := st.extractLsb' 6 26 ++ st.extractLsb' 0 4 ++ 0#2

/-- The pop of the KU/IE stack: current from previous, previous from old, old kept (rule R356). -/
def statusPop (st : Word) : Word := st.extractLsb' 4 28 ++ st.extractLsb' 2 4

/-- Cause after trap entry: BD, CE and ExcCode written, IP[1:0] kept, the rest 0 (rules R38, R381). -/
def causeEntry (old : Word) (bd : Bool) (ce : CopNum) (code : BitVec 5) : Word :=
  BitVec.ofBool bd ++ 0#1 ++ ce ++ 0#18 ++ old.extractLsb' 8 2 ++ 0#1 ++ code ++ 0#2

/-- Context.BadVPN <- va[30:12] (rule R63). -/
def contextWithVa (old va : Word) : Word := old.extractLsb' 21 11 ++ va.extractLsb' 12 19 ++ 0#2

/-- EntryHi.VPN <- va[31:12], ASID unchanged (rule R63). -/
def entryHiWithVa (old va : Word) : Word := va.extractLsb' 12 20 ++ old.extractLsb' 6 6 ++ 0#6

/-! ## Exceptions -/

/-- Cause.ExcCode (rule R370). -/
def Exc.code : Exc → BitVec 5
  | .interrupt => 0
  | .tlbMod _ => 1
  | .tlbLoad _ _ => 2
  | .tlbStore _ _ => 3
  | .addressErrorLoad _ => 4
  | .addressErrorStore _ => 5
  | .busErrorFetch => 6
  | .busErrorData => 7
  | .syscall => 8
  | .breakpoint => 9
  | .reservedInstruction => 10
  | .coprocessorUnusable _ => 11
  | .overflow => 12

/-- The address a TLB exception records in BadVAddr, Context and EntryHi (rule R379). -/
def Exc.tlbAddress : Exc → Option Word
  | .tlbMod va => some va
  | .tlbLoad va _ => some va
  | .tlbStore va _ => some va
  | .interrupt | .addressErrorLoad _ | .addressErrorStore _ | .busErrorFetch | .busErrorData | .syscall
  | .breakpoint | .reservedInstruction | .coprocessorUnusable _ | .overflow => none

/-- The address an exception records in BadVAddr (rules R373, R379). -/
def Exc.badAddress : Exc → Option Word
  | .tlbMod va => some va
  | .tlbLoad va _ => some va
  | .tlbStore va _ => some va
  | .addressErrorLoad va => some va
  | .addressErrorStore va => some va
  | .interrupt | .busErrorFetch | .busErrorData | .syscall
  | .breakpoint | .reservedInstruction | .coprocessorUnusable _ | .overflow => none

/-- The exception is a user-segment refill: no entry matched an address with bit 31 clear (rule R382). -/
def Exc.userRefill : Exc → Bool
  | .tlbLoad va refill => refill && !va.getLsbD 31
  | .tlbStore va refill => refill && !va.getLsbD 31
  | .interrupt | .tlbMod _ | .addressErrorLoad _ | .addressErrorStore _ | .busErrorFetch | .busErrorData
  | .syscall | .breakpoint | .reservedInstruction | .coprocessorUnusable _ | .overflow => false

/-- Cause.CE: the coprocessor of `CoprocessorUnusable`, a draw for every other exception (rule R381). -/
def Exc.ce (n : Nat) : Exc → CopNum
  | .coprocessorUnusable z => z
  | .interrupt | .tlbMod _ | .tlbLoad _ _ | .tlbStore _ _ | .addressErrorLoad _ | .addressErrorStore _
  | .busErrorFetch | .busErrorData | .syscall | .breakpoint | .reservedInstruction | .overflow =>
    Config.freeCe n

/-- The exception vectors (rule R382). -/
def excVector (bev userRefill : Bool) : Word :=
  if bev then (if userRefill then 0xBFC00100 else 0xBFC00180)
  else (if userRefill then 0x80000000 else 0x80000080)

/-- Where the exception enters (rule R382). -/
def State.vector (s : State) (e : Exc) : Word := excVector s.bev e.userRefill

/-- Trap entry, `TRAP_MODEL` = `mips1` (rule R381), with the records of a TLB exception (rule R379). -/
def State.trapEntry (s : State) (e : Exc) : State :=
  let inSlot := s.cfg.delaySlots && s.inDelay
  { s with
    epc := if inSlot then s.pc - 4 else s.pc
    cause := causeEntry s.cause inSlot (e.ce s.draws) e.code
    badVAddr := e.badAddress.getD s.badVAddr
    context := match e.tlbAddress with
      | some va => contextWithVa s.context va
      | none => s.context
    entryHi := match e.tlbAddress with
      | some va => entryHiWithVa s.entryHi va
      | none => s.entryHi
    status := statusPush s.status
    pc := s.vector e
    npc := if s.cfg.delaySlots then s.vector e + 4 else s.npc
    inDelay := if s.cfg.delaySlots then false else s.inDelay
    loadPending := .none
    draws := s.draws + 1 }

/-- `raise E(info)` (rule R380): the run stops, or the trap is entered. -/
def State.raise (s : State) (e : Exc) : Result :=
  match s.cfg.trapModel with
  | .fault => .next { s with outcome := .stopped e }
  | .mips1 => .next (s.trapEntry e)

/-- The return from an exception's half that `rfe` makes: the pop of the Status stack (rules R356, R384). -/
def State.exceptionReturn (s : State) : State := { s with status := statusPop s.status }

/-- What ends an instruction before its effect. -/
def State.stop (s : State) : Stop → Result
  | .exc e => s.raise e
  | .fault r => .fault r
  | .refuse r => .refused r

/-- `usable(z)` (rules R101, R378). -/
def State.usable (s : State) (z : CopNum) : Bool :=
  s.cfg.present z &&
    match s.cfg.trapModel with
    | .fault => true
    | .mips1 => s.cuBit z || (z = 0 && !s.userMode)

/-- The test every word of coprocessor z's space meets first (rules R84, R101, R355). -/
def State.gate (s : State) (z : CopNum) : Option Stop :=
  if z = 0 ∧ s.cfg.trapModel = .fault then some (.refuse .cop0InFaultModel)
  else if s.usable z then none else some (.exc (.coprocessorUnusable z))

/-- The effect `k` under that test. -/
def State.onCop (s : State) (z : CopNum) (k : Result) : Result :=
  match s.gate z with
  | some st => s.stop st
  | none => k

/-! ## Completion of an instruction (rule R27) -/

/-- How a completed instruction moves `pc` and the hidden state on. -/
structure Completion where
  /-- the register a load or coprocessor move has just written (R431) -/
  pending : Pending := .none
  /-- a compare or a `ctc1` to FCR31 (R433) -/
  fccFresh : Bool := false
  /-- `mfhi` or `mflo` (R432) -/
  readsHiLo : Bool := false
  /-- a branch or jump, taken or not (R27) -/
  branches : Bool := false
  /-- the target of a `Branch` that was called (R11) -/
  target : Option Word := none
  deriving DecidableEq, Repr

/-- The hazard bookkeeping after an instruction that raised nothing (rules R27, R431, R432, R433); each
piece of hidden state exists under its parameter only (rule R42). -/
def State.bookkeep (s : State) (c : Completion) : State :=
  { s with
    loadPending := if s.cfg.loadDelay then c.pending else s.loadPending
    fccFresh := if s.cfg.loadDelay then c.fccFresh else s.fccFresh
    hiloAge := if s.cfg.hiloHazard then (if c.readsHiLo then 0 else min 2 (s.hiloAge + 1)) else s.hiloAge }

/-- The transfer of control after an instruction (rules R11, R27). -/
def State.advance (s : State) (c : Completion) : State :=
  if s.cfg.delaySlots then
    { s with pc := s.npc, npc := c.target.getD (s.npc + 4), inDelay := c.branches }
  else { s with pc := c.target.getD (s.pc + 4) }

/-- The instruction completes: bookkeeping, then the transfer of control. -/
def State.complete (s : State) (c : Completion) : Result := .next ((s.bookkeep c).advance c)

/-- `LinkAddr` (rule R12). -/
def State.linkAddr (s : State) : Word := if s.cfg.delaySlots then s.pc + 8 else s.pc + 4

/-- The instruction writes `x[rd] <- v` and completes. -/
def State.finishX (s : State) (rd : Reg) (v : Word) : Result := (s.setX rd v).complete {}

/-- A branch: `Branch(BranchTarget)` if the condition holds (rules R190, R192). -/
def State.branch (s : State) (cond : Bool) (offset : BitVec 16) : Result :=
  s.complete { branches := true, target := if cond then some (branchTarget s.pc offset) else none }

/-- A jump: `Branch(t)`. -/
def State.jump (s : State) (t : Word) : Result := s.complete { branches := true, target := some t }

/-! ## Memory access (`20_memory.md`) -/

/-- The kinds of access of rule R63. -/
inductive Access
  | fetch
  | load
  | store
  deriving DecidableEq, Repr

/-- The address error of a kind of access (rules R54, R55, R62). -/
def addressError : Access → Word → Exc
  | .fetch, va => .addressErrorLoad va
  | .load, va => .addressErrorLoad va
  | .store, va => .addressErrorStore va

/-- The bus error of a kind of access (rules R56, R60). -/
def busError : Access → Exc
  | .fetch => .busErrorFetch
  | .load => .busErrorData
  | .store => .busErrorData

/-- The TLB exception of a kind of access (rule R63). -/
def tlbMiss : Access → Word → Bool → Exc
  | .fetch, va, refill => .tlbLoad va refill
  | .load, va, refill => .tlbLoad va refill
  | .store, va, refill => .tlbStore va refill

/-! The fields of a translation entry (rule R40). -/

def TlbEntry.vpn (e : TlbEntry) : BitVec 20 := e.hi.extractLsb' 12 20
def TlbEntry.asid (e : TlbEntry) : BitVec 6 := e.hi.extractLsb' 6 6
def TlbEntry.pfn (e : TlbEntry) : BitVec 20 := e.lo.extractLsb' 12 20
def TlbEntry.writable (e : TlbEntry) : Bool := e.lo.getLsbD 10
def TlbEntry.valid (e : TlbEntry) : Bool := e.lo.getLsbD 9
def TlbEntry.global (e : TlbEntry) : Bool := e.lo.getLsbD 8

/-- The entry matches a virtual page and an address space (rules R63, R360). -/
def TlbEntry.matchesPage (e : TlbEntry) (vpn : BitVec 20) (asid : BitVec 6) : Bool :=
  e.vpn = vpn && (e.global || e.asid = asid)

/-- The matching entries with their indices (rules R63, R360). -/
def tlbMatches (tlb : List TlbEntry) (vpn : BitVec 20) (asid : BitVec 6) : List (TlbEntry × Nat) :=
  tlb.zipIdx.filter fun p => p.1.matchesPage vpn asid

/-- EntryHi.ASID (rule R40). -/
def State.asid (s : State) : BitVec 6 := s.entryHi.extractLsb' 6 6

/-- EntryHi.VPN (rule R40). -/
def State.entryVpn (s : State) : BitVec 20 := s.entryHi.extractLsb' 12 20

/-- Index.Index (rule R40). -/
def State.indexField (s : State) : Nat := (s.index.extractLsb' 8 6).toNat

/-- Translation through the TLB (rule R63). -/
def State.translate (s : State) (va : Word) (k : Access) : Except Stop Word :=
  match tlbMatches s.tlb (va.extractLsb' 12 20) s.asid with
  | [] => .error (.exc (tlbMiss k va true))
  | [(e, _)] =>
    if e.valid = false then .error (.exc (tlbMiss k va false))
    else if k = .store ∧ e.writable = false then .error (.exc (.tlbMod va))
    else .ok (e.pfn ++ va.extractLsb' 0 12)
  | _ :: _ :: _ => .error (.fault .tlbMultipleMatch)

/-- The physical address: the user-mode segment check, then the segments and translation (rules R61 to
R63); flat when `TRAP_MODEL` = `fault`. -/
def State.physical (s : State) (va : Word) (k : Access) : Except Stop Word :=
  match s.cfg.trapModel with
  | .fault => .ok va
  | .mips1 =>
    if s.userMode && va.getLsbD 31 then .error (.exc (addressError k va))
    else if va.extractLsb' 29 3 = 0b100#3 then .ok (va - 0x80000000)
    else if va.extractLsb' 29 3 = 0b101#3 then .ok (va - 0xA0000000)
    else s.translate va k

/-- The address lies in `MEM_DOMAIN` (rule R60). -/
def admits (domain : List AddrRange) (a : Nat) : Bool :=
  domain.any fun r => r.base ≤ a && a < r.base + r.size

/-- Admission of every byte of an access (rule R60). -/
def State.admitAll (s : State) (k : Access) (addrs : List Nat) : Except Stop Unit :=
  if addrs.all (admits s.cfg.memDomain) then .ok () else .error (.exc (busError k))

/-- All the checks of an access of `n` bytes at `va`, in the order of rule R64, and the physical address. -/
def State.reach (s : State) (va : Word) (n : Nat) (k : Access) : Except Stop Nat :=
  if va.toNat % n ≠ 0 then .error (.exc (addressError k va))
  else
    match s.physical va k with
    | .error e => .error e
    | .ok pa =>
      match s.admitAll k ((List.range n).map fun i => pa.toNat + i) with
      | .error e => .error e
      | .ok () => .ok pa.toNat

/-- The checks of a left or right access at `va`, which needs no alignment, and the physical address of the
aligned word (rules R64, R231, R232). Only the bytes touched are checked for admission. One translation serves
the word: DEDUCED, notes/assumptions/17.md (safe). -/
def State.reachPart (s : State) (left : Bool) (va : Word) (k : Access) : Except Stop Nat :=
  match s.physical va k with
  | .error e => .error e
  | .ok pa =>
    let base := pa.toNat - pa.toNat % 4
    match s.admitAll k ((laneOffsets left s.cfg.bigEndian (va.toNat % 4)).map fun o => base + o) with
    | .error e => .error e
    | .ok () => .ok base

/-- The byte of memory at a physical address. -/
def State.byteAt (s : State) (a : Nat) : Byte := Memory.read s.mem a

/-- The halfword of memory at a physical address (rule R51). -/
def State.halfAt (s : State) (a : Nat) : Half :=
  assembleHalf s.cfg.bigEndian (s.byteAt a) (s.byteAt (a + 1))

/-- The word of memory at a physical address (rules R51, R53). -/
def State.wordAt (s : State) (a : Nat) : Word :=
  assembleWord s.cfg.bigEndian (s.byteAt a) (s.byteAt (a + 1)) (s.byteAt (a + 2)) (s.byteAt (a + 3))

/-- The cells written to memory, and to `dirty` unless `FETCH_SEES_STORES` (rules R51, R67). -/
def State.writeCells (s : State) (cells : List Host.Cell) : State :=
  { s with
    mem := Memory.writeCells s.mem cells
    dirty := if s.cfg.fetchSeesStores then s.dirty else addrInsertCells s.dirty cells }

/-- `addr` = `x[rs] + sext_32(Offset)` (rule R230). -/
def State.ea (s : State) (base : Reg) (offset : BitVec 16) : Word := s.x base + sext offset

/-- `MemRead(addr, 1)` (rule R51). -/
def State.loadByte (s : State) (va : Word) : Except Stop Byte :=
  match s.reach va 1 .load with
  | .error e => .error e
  | .ok a => .ok (s.byteAt a)

/-- `MemRead(addr, 2)`. -/
def State.loadHalf (s : State) (va : Word) : Except Stop Half :=
  match s.reach va 2 .load with
  | .error e => .error e
  | .ok a => .ok (s.halfAt a)

/-- `MemRead(addr, 4)`. -/
def State.loadWord (s : State) (va : Word) : Except Stop Word :=
  match s.reach va 4 .load with
  | .error e => .error e
  | .ok a => .ok (s.wordAt a)

/-- The merged register of `lwl` (`left`) or `lwr` (rule R232). -/
def State.loadPart (s : State) (left : Bool) (va : Word) (old : Word) : Except Stop Word :=
  match s.reachPart left va .load with
  | .error e => .error e
  | .ok base => .ok (laneMerge left s.cfg.bigEndian (va.toNat % 4) old fun o => s.byteAt (base + o))

/-- `MemWrite(addr, n, v)` with the bytes of `v` in ascending addresses (rule R51). -/
def State.store (s : State) (va : Word) (bytes : List Byte) : Except Stop State :=
  match s.reach va bytes.length .store with
  | .error e => .error e
  | .ok a => .ok (s.writeCells (cellsAt a bytes))

/-- The store of `swl` (`left`) or `swr` (rule R232). -/
def State.storePart (s : State) (left : Bool) (va : Word) (v : Word) : Except Stop State :=
  match s.reachPart left va .store with
  | .error e => .error e
  | .ok base => .ok (s.writeCells (laneCells left s.cfg.bigEndian (va.toNat % 4) base v))

/-- A load into general register `rt` ends (rules R231, R431). -/
def State.finishLoad (s : State) (rt : Reg) : Except Stop Word → Result
  | .error e => s.stop e
  | .ok v => (s.setX rt v).complete { pending := .gpr rt }

/-- A load whose destination is not a general register: `k` writes it and ends (rules R231, R245). -/
def State.loadThen (s : State) (r : Except Stop Word) (k : Word → Result) : Result :=
  match r with
  | .error e => s.stop e
  | .ok v => k v

/-- A store ends (rule R231). -/
def State.finishStore (s : State) : Except Stop State → Result
  | .error e => s.stop e
  | .ok t => t.complete {}

/-- `Fetch(pc)` (rules R55, R56, R67). -/
def State.fetch (s : State) : Except Stop Word :=
  match s.reach s.pc 4 .fetch with
  | .error e => .error e
  | .ok a =>
    if s.cfg.fetchSeesStores = false ∧ s.dirty.any (fun d => a ≤ d && d < a + 4) then
      .error (.fault .staleFetch)
    else .ok (s.wordAt a)

/-- The word placed where the next fetch reads, as a program from outside is: memory only, the bytes not
counted as stored (notes/assumptions/15.md). -/
def State.placeWord (s : State) (w : Word) : State :=
  match s.physical s.pc .fetch with
  | .error _ => s
  | .ok pa =>
    { s with
      mem := Memory.writeCells s.mem (cellsAt pa.toNat (wordBytes s.cfg.bigEndian w))
      dirty := s.dirty.filter fun d => !(pa.toNat ≤ d && d < pa.toNat + 4) }

/-! ## Floating-point results -/

/-- The effect `k` if every register named holds a double, the refusal of rule R292 otherwise. -/
def State.onEven (regs : List Reg) (k : Result) : Result :=
  if regs.all evenReg then k else .refused .oddDoubleRegister

/-- The draw is used up. -/
def State.drawn (s : State) : State := { s with draws := s.draws + 1 }

/-- A single-precision result, `none` being `draw(NaN)` (rule R293), ends the instruction. -/
def State.finishS (s : State) (fd : Reg) : Option Word → Result
  | some v => (s.setF fd v).complete {}
  | none => (s.drawn.setF fd (nan32 (Config.freeNaN s.draws))).complete {}

/-- A double-precision result, `none` being `draw(NaN)` (rule R293), ends the instruction. -/
def State.finishD (s : State) (fd : Reg) : Option DWord → Result
  | some v => (s.setD fd v).complete {}
  | none => (s.drawn.setD fd (nan64 (Config.freeNaN s.draws))).complete {}

/-- The integer result of `cvt.w`, `none` being a 32-bit draw (rule R308), ends the instruction. -/
def State.finishW (s : State) (fd : Reg) : Option Word → Result
  | some v => (s.setF fd v).complete {}
  | none => (s.drawn.setF fd (Config.freeWord s.draws)).complete {}

/-- A compare writes `fcc` and ends (rules R320, R433). -/
def State.finishCompare (s : State) (c : Bool) : Result :=
  { s with fcc := c }.complete { fccFresh := true }

/-- A single-precision compare (rule R320). -/
def State.compareS (s : State) (cond : BitVec 4) (fs ft : Reg) : Result :=
  s.onCop 1 (s.finishCompare (compareCondition cond (s.fp.relation32 (s.f fs) (s.f ft))))

/-- A double-precision compare (rules R292, R320). -/
def State.compareD (s : State) (cond : BitVec 4) (fs ft : Reg) : Result :=
  s.onCop 1 (State.onEven [fs, ft]
    (s.finishCompare (compareCondition cond (s.fp.relation64 (s.d fs) (s.d ft)))))

/-! ## Multiply and divide (rule R121) -/

/-- `hi` and `lo` written, the instruction completes. -/
def State.finishHiLo (s : State) (hi lo : Word) : Result := { s with hi := hi, lo := lo }.complete {}

/-- Division by zero: `lo` and `hi` are draws (rules R129, R130). -/
def State.finishDivideByZero (s : State) : Result :=
  { s.drawn.drawn with hi := Config.freeWord (s.draws + 1), lo := Config.freeWord s.draws }.complete {}

/-- The signed quotient under `SDIV_CONVENTION` (rule R121). -/
def signedQuotient (c : SdivConvention) (a b : Int) : Int :=
  match c with
  | .truncate => a.tdiv b
  | .floor => a.fdiv b

/-! ## Moves to and from coprocessors -/

/-- A move into general register `rt` from a coprocessor ends (rule R431). -/
def State.finishMove (s : State) (rt : Reg) (v : Word) : Result :=
  (s.setX rt v).complete { pending := .gpr rt }

/-- A branch on the condition input of coprocessor 0, 2 or 3, a draw (rule R35). -/
def State.branchOnInput (s : State) (z : CopNum) (sense : Bool) (offset : BitVec 16) : Result :=
  s.drawn.branch (Config.freeCondition z s.draws == sense) offset

/-! ## Interrupts and the inputs of the step (rules R390, R391) -/

/-- An interrupt is pending and enabled (rules R391, R393). -/
def State.interruptTaken (s : State) : Bool :=
  match s.cfg.trapModel with
  | .fault => false
  | .mips1 => s.interruptsEnabled && s.pendingInterrupts &&& s.status.extractLsb' 8 8 != 0

/-- A draw of Random's range 8 to 63 (rule R40). -/
def drawRandom (n : Nat) : BitVec 6 := BitVec.ofNat 6 (8 + n % 56)

/-- The entry `tlbwr` chooses, by the draw `n`, of a buffer of more than 8 entries: 8 or above (rule R359). -/
def randomEntry (entries n : Nat) : Nat := 8 + n % (entries - 8)

/-- The inputs of the next step: the interrupt levels and Random, both draws, in the `mips1` model only
(rules R40, R390, R393). -/
def State.sampleInputs (s : State) : State :=
  match s.cfg.trapModel with
  | .fault => s
  | .mips1 =>
    { s with
      intPins := Config.freeInterruptLevels s.draws
      random := drawRandom (Config.freeIndex (s.draws + 1))
      draws := s.draws + 2 }

/-- The next state passed through a function; a fault and a refusal stay. -/
def mapNext (g : State → State) : Result → Result
  | .next s => .next (g s)
  | .fault r => .fault r
  | .refused r => .refused r

end Sys2Proof.Machine
end

