-- ==== Sys2Proof/Machine/ArithLogic.lean ====
section
/-! DEFINITION. The arithmetic and logical instructions (`40_arith_logic.md`). -/

namespace Sys2Proof.Machine

/-- `add` (rule R123): sum, trapping on signed overflow. -/
def execAdd (rd rs rt : Reg) (s : State) : Result :=
  if addOverflows (s.x rs) (s.x rt) then s.raise .overflow else s.finishX rd (s.x rs + s.x rt)

/-- `addu` (rule R124): sum modulo 2^32. -/
def execAddu (rd rs rt : Reg) (s : State) : Result := s.finishX rd (s.x rs + s.x rt)

/-- `addi` (rule R125): sum with the sign-extended immediate, trapping on signed overflow. -/
def execAddi (rt rs : Reg) (imm : BitVec 16) (s : State) : Result :=
  if addOverflows (s.x rs) (sext imm) then s.raise .overflow else s.finishX rt (s.x rs + sext imm)

/-- `addiu` (rule R126): sum with the sign-extended immediate, modulo 2^32. -/
def execAddiu (rt rs : Reg) (imm : BitVec 16) (s : State) : Result := s.finishX rt (s.x rs + sext imm)

/-- `sub` (rule R154): difference, trapping on signed overflow. -/
def execSub (rd rs rt : Reg) (s : State) : Result :=
  if subOverflows (s.x rs) (s.x rt) then s.raise .overflow else s.finishX rd (s.x rs - s.x rt)

/-- `subu` (rule R155): difference modulo 2^32. -/
def execSubu (rd rs rt : Reg) (s : State) : Result := s.finishX rd (s.x rs - s.x rt)

/-- `and` (rule R127): bitwise AND. -/
def execAnd (rd rs rt : Reg) (s : State) : Result := s.finishX rd (s.x rs &&& s.x rt)

/-- `or` (rule R142): bitwise OR. -/
def execOr (rd rs rt : Reg) (s : State) : Result := s.finishX rd (s.x rs ||| s.x rt)

/-- `xor` (rule R156): bitwise exclusive OR. -/
def execXor (rd rs rt : Reg) (s : State) : Result := s.finishX rd (s.x rs ^^^ s.x rt)

/-- `nor` (rule R140): complement of the bitwise OR. -/
def execNor (rd rs rt : Reg) (s : State) : Result := s.finishX rd (~~~(s.x rs ||| s.x rt))

/-- `andi` (rule R128): AND with the zero-extended immediate. -/
def execAndi (rt rs : Reg) (imm : BitVec 16) (s : State) : Result := s.finishX rt (s.x rs &&& zext imm)

/-- `ori` (rule R143): OR with the zero-extended immediate. -/
def execOri (rt rs : Reg) (imm : BitVec 16) (s : State) : Result := s.finishX rt (s.x rs ||| zext imm)

/-- `xori` (rule R157): exclusive OR with the zero-extended immediate. -/
def execXori (rt rs : Reg) (imm : BitVec 16) (s : State) : Result := s.finishX rt (s.x rs ^^^ zext imm)

/-- `sll` (rule R146): left shift by `shamt`. -/
def execSll (rd rt shamt : Reg) (s : State) : Result := s.finishX rd (s.x rt <<< shamt.toNat)

/-- `srl` (rule R150): logical right shift by `shamt`. -/
def execSrl (rd rt shamt : Reg) (s : State) : Result := s.finishX rd (s.x rt >>> shamt.toNat)

/-- `sra` (rule R148): arithmetic right shift by `shamt`. -/
def execSra (rd rt shamt : Reg) (s : State) : Result := s.finishX rd ((s.x rt).sshiftRight shamt.toNat)

/-- `sllv` (rule R147): left shift by the low five bits of `x[rs]`. -/
def execSllv (rd rt rs : Reg) (s : State) : Result := s.finishX rd (s.x rt <<< shiftDistance (s.x rs))

/-- `srlv` (rule R151): logical right shift by the low five bits of `x[rs]`. -/
def execSrlv (rd rt rs : Reg) (s : State) : Result := s.finishX rd (s.x rt >>> shiftDistance (s.x rs))

/-- `srav` (rule R149): arithmetic right shift by the low five bits of `x[rs]`. -/
def execSrav (rd rt rs : Reg) (s : State) : Result :=
  s.finishX rd ((s.x rt).sshiftRight (shiftDistance (s.x rs)))

/-- `mult` (rule R133): the signed 64-bit product to `hi` and `lo`. -/
def execMult (rs rt : Reg) (s : State) : Result :=
  let p := BitVec.ofInt 64 ((s.x rs).toInt * (s.x rt).toInt)
  s.finishHiLo (p.extractLsb' 32 32) (p.extractLsb' 0 32)

/-- `multu` (rule R134): the unsigned 64-bit product to `hi` and `lo`. -/
def execMultu (rs rt : Reg) (s : State) : Result :=
  let p := BitVec.ofNat 64 ((s.x rs).toNat * (s.x rt).toNat)
  s.finishHiLo (p.extractLsb' 32 32) (p.extractLsb' 0 32)

/-- `div` (rule R129): signed quotient to `lo`, remainder to `hi`, under `SDIV_CONVENTION`; draws on
division by zero. -/
def execDiv (rs rt : Reg) (s : State) : Result :=
  if s.x rt = 0 then s.finishDivideByZero
  else
    let a := (s.x rs).toInt
    let b := (s.x rt).toInt
    let q := signedQuotient s.cfg.sdiv a b
    s.finishHiLo (BitVec.ofInt 32 (a - q * b)) (BitVec.ofInt 32 q)

/-- `divu` (rule R130): unsigned quotient to `lo`, remainder to `hi`; draws on division by zero. -/
def execDivu (rs rt : Reg) (s : State) : Result :=
  if s.x rt = 0 then s.finishDivideByZero
  else
    let q := (s.x rs).toNat / (s.x rt).toNat
    s.finishHiLo (BitVec.ofNat 32 ((s.x rs).toNat - q * (s.x rt).toNat)) (BitVec.ofNat 32 q)

end Sys2Proof.Machine
end

