-- ==== Sys2Proof/Machine/BranchJump.lean ====
section
/-! DEFINITION. The branch and jump instructions (`42_branch_jump.md`). -/

namespace Sys2Proof.Machine

/-- `beq` (rule R196): branch if equal. -/
def execBeq (rs rt : Reg) (offset : BitVec 16) (s : State) : Result := s.branch (s.x rs == s.x rt) offset

/-- `bne` (rule R203): branch if not equal. -/
def execBne (rs rt : Reg) (offset : BitVec 16) (s : State) : Result := s.branch (s.x rs != s.x rt) offset

/-- `blez` (rule R200): branch if `x[rs]`, signed, is at most 0. -/
def execBlez (rs : Reg) (offset : BitVec 16) (s : State) : Result := s.branch ((s.x rs).toInt ≤ 0) offset

/-- `bgtz` (rule R199): branch if `x[rs]`, signed, is above 0. -/
def execBgtz (rs : Reg) (offset : BitVec 16) (s : State) : Result := s.branch (0 < (s.x rs).toInt) offset

/-- `bltz` (rule R202): branch if `x[rs]`, signed, is below 0. -/
def execBltz (rs : Reg) (offset : BitVec 16) (s : State) : Result := s.branch ((s.x rs).toInt < 0) offset

/-- `bgez` (rule R197): branch if `x[rs]`, signed, is at least 0. -/
def execBgez (rs : Reg) (offset : BitVec 16) (s : State) : Result := s.branch (0 ≤ (s.x rs).toInt) offset

/-- `bltzal` (rule R201): link, then branch if the old `x[rs]`, signed, is below 0. -/
def execBltzal (rs : Reg) (offset : BitVec 16) (s : State) : Result :=
  if rs = 31 then .refused .linkRegisterClash
  else (s.setX 31 s.linkAddr).branch ((s.x rs).toInt < 0) offset

/-- `bgezal` (rule R198): link, then branch if the old `x[rs]`, signed, is at least 0. -/
def execBgezal (rs : Reg) (offset : BitVec 16) (s : State) : Result :=
  if rs = 31 then .refused .linkRegisterClash
  else (s.setX 31 s.linkAddr).branch (0 ≤ (s.x rs).toInt) offset

/-- `j` (rule R214): jump within the region. -/
def execJ (target : BitVec 26) (s : State) : Result := s.jump (jumpTarget s.pc target)

/-- `jal` (rule R215): link in register 31, jump within the region. -/
def execJal (target : BitVec 26) (s : State) : Result :=
  (s.setX 31 s.linkAddr).jump (jumpTarget s.pc target)

/-- `jr` (rule R217): jump to `x[rs]`. -/
def execJr (rs : Reg) (s : State) : Result := s.jump (s.x rs)

/-- `jalr` (rule R216): link in `rd`, jump to the old `x[rs]`. -/
def execJalr (rs rd : Reg) (s : State) : Result :=
  if rd = rs then .refused .linkRegisterClash
  else (s.setX rd s.linkAddr).jump (s.x rs)

/-- `bc0f` (rule R195): branch if the condition input of coprocessor 0 is false. -/
def execBc0f (offset : BitVec 16) (s : State) : Result := s.onCop 0 (s.branchOnInput 0 false offset)

/-- `bc0t` (rule R194): branch if the condition input of coprocessor 0 is true. -/
def execBc0t (offset : BitVec 16) (s : State) : Result := s.onCop 0 (s.branchOnInput 0 true offset)

/-- `bc1f` (rule R195): branch if `fcc` is false. -/
def execBc1f (offset : BitVec 16) (s : State) : Result := s.onCop 1 (s.branch (!s.fcc) offset)

/-- `bc1t` (rule R194): branch if `fcc` is true. -/
def execBc1t (offset : BitVec 16) (s : State) : Result := s.onCop 1 (s.branch s.fcc offset)

/-- `bc2f` (rule R195): branch if the condition input of coprocessor 2 is false. -/
def execBc2f (offset : BitVec 16) (s : State) : Result := s.onCop 2 (s.branchOnInput 2 false offset)

/-- `bc2t` (rule R194): branch if the condition input of coprocessor 2 is true. -/
def execBc2t (offset : BitVec 16) (s : State) : Result := s.onCop 2 (s.branchOnInput 2 true offset)

/-- `bc3f` (rule R195): branch if the condition input of coprocessor 3 is false. -/
def execBc3f (offset : BitVec 16) (s : State) : Result := s.onCop 3 (s.branchOnInput 3 false offset)

/-- `bc3t` (rule R194): branch if the condition input of coprocessor 3 is true. -/
def execBc3t (offset : BitVec 16) (s : State) : Result := s.onCop 3 (s.branchOnInput 3 true offset)

end Sys2Proof.Machine
end

