-- ==== Sys2Proof/Machine/ConstCompare.lean ====
section
/-! DEFINITION. The constant-manipulating and comparison instructions (`41_const_compare.md`). -/

namespace Sys2Proof.Machine

/-- `lui` (rule R171): the immediate in the upper halfword. -/
def execLui (rt : Reg) (imm : BitVec 16) (s : State) : Result := s.finishX rt (upper imm)

/-- `slt` (rule R175): 1 if less than, signed, else 0. -/
def execSlt (rd rs rt : Reg) (s : State) : Result := s.finishX rd (boolWord ((s.x rs).slt (s.x rt)))

/-- `sltu` (rule R176): 1 if less than, unsigned, else 0. -/
def execSltu (rd rs rt : Reg) (s : State) : Result := s.finishX rd (boolWord ((s.x rs).ult (s.x rt)))

/-- `slti` (rule R177): 1 if less than the sign-extended immediate, signed, else 0. -/
def execSlti (rt rs : Reg) (imm : BitVec 16) (s : State) : Result :=
  s.finishX rt (boolWord ((s.x rs).slt (sext imm)))

/-- `sltiu` (rule R178): 1 if less than the sign-extended immediate, unsigned, else 0. -/
def execSltiu (rt rs : Reg) (imm : BitVec 16) (s : State) : Result :=
  s.finishX rt (boolWord ((s.x rs).ult (sext imm)))

end Sys2Proof.Machine
end

