-- ==== Sys2Proof/Machine/DataMovement.lean ====
section
/-! DEFINITION. The data movement instructions (`44_data_movement.md`). -/

namespace Sys2Proof.Machine

/-- `mfhi` (rule R272): `hi` to `x[rd]`. -/
def execMfhi (rd : Reg) (s : State) : Result := (s.setX rd s.hi).complete { readsHiLo := true }

/-- `mflo` (rule R273): `lo` to `x[rd]`. -/
def execMflo (rd : Reg) (s : State) : Result := (s.setX rd s.lo).complete { readsHiLo := true }

/-- `mthi` (rule R274): `x[rs]` to `hi`. -/
def execMthi (rs : Reg) (s : State) : Result := { s with hi := s.x rs }.complete {}

/-- `mtlo` (rule R275): `x[rs]` to `lo`. -/
def execMtlo (rs : Reg) (s : State) : Result := { s with lo := s.x rs }.complete {}

/-- `mfc0` (rule R276): the system control register `rd` to `x[rt]`; a reserved number is refused. -/
def execMfc0 (rt rd : Reg) (s : State) : Result :=
  s.onCop 0
    (match s.cp0Read rd with
    | some v => s.finishMove rt v
    | none => .refused .cp0Reserved)

/-- `mtc0` (rule R280): `x[rt]` to the system control register `rd`, by its access column; a reserved number
and a refused Status bit are refused. -/
def execMtc0 (rt rd : Reg) (s : State) : Result :=
  s.onCop 0
    (match s.cp0Write rd (s.x rt) with
    | some t => t.complete {}
    | none => .refused .cp0Reserved)

/-- `cfc0` (rule R278): coprocessor 0 has no control registers. The `ReservedInstruction` is the instruction's
own, after the should-be-zero and hazard checks: DEDUCED, notes/assumptions/23.md (unsafe). -/
def execCfc0 (_rt _rd : Reg) (s : State) : Result := s.onCop 0 (s.raise .reservedInstruction)

/-- `ctc0` (rule R279): coprocessor 0 has no control registers. The `ReservedInstruction` is the instruction's
own, after the should-be-zero and hazard checks: DEDUCED, notes/assumptions/23.md (unsafe). -/
def execCtc0 (_rt _rd : Reg) (s : State) : Result := s.onCop 0 (s.raise .reservedInstruction)

/-- `mfc1` (rule R276): `f[rd]` to `x[rt]`. -/
def execMfc1 (rt rd : Reg) (s : State) : Result := s.onCop 1 (s.finishMove rt (s.f rd))

/-- `mtc1` (rule R280): `x[rt]` to `f[rd]`. -/
def execMtc1 (rt rd : Reg) (s : State) : Result :=
  s.onCop 1 ((s.setF rd (s.x rt)).complete { pending := .fpr rd })

/-- `cfc1` (rule R278): the FCR31 image or FCR0 to `x[rt]`; the other numbers are refused. -/
def execCfc1 (rt rd : Reg) (s : State) : Result :=
  s.onCop 1
    (if rd = 31 then s.drawn.finishMove rt (fcr31Image s.fcc s.rm (Config.freeWord s.draws))
    else if rd = 0 then s.finishMove rt s.fcr0
    else .refused .fpControlRegister)

/-- `ctc1` (rule R279): RM and `C` of FCR31 from `x[rt]`; an enable bit and every other register are
refused. -/
def execCtc1 (rt rd : Reg) (s : State) : Result :=
  s.onCop 1
    (if rd = 31 ∧ (s.x rt).extractLsb' 7 5 = 0 then
      { s with rm := (s.x rt).extractLsb' 0 2, fcc := (s.x rt).getLsbD 23 }.complete { fccFresh := true }
    else .refused .fpControlRegister)

/-- `mfc2` (rule R276): `cpr[2][rd]` to `x[rt]`. -/
def execMfc2 (rt rd : Reg) (s : State) : Result := s.onCop 2 (s.finishMove rt (regGet s.cpr2 rd))

/-- `mtc2` (rule R280): `x[rt]` to `cpr[2][rd]`. -/
def execMtc2 (rt rd : Reg) (s : State) : Result :=
  s.onCop 2 ({ s with cpr2 := regSet s.cpr2 rd (s.x rt) }.complete {})

/-- `cfc2` (rule R278): `ccr[2][rd]` to `x[rt]`. -/
def execCfc2 (rt rd : Reg) (s : State) : Result := s.onCop 2 (s.finishMove rt (regGet s.ccr2 rd))

/-- `ctc2` (rule R279): `x[rt]` to `ccr[2][rd]`. -/
def execCtc2 (rt rd : Reg) (s : State) : Result :=
  s.onCop 2 ({ s with ccr2 := regSet s.ccr2 rd (s.x rt) }.complete {})

/-- `mfc3` (rule R276): `cpr[3][rd]` to `x[rt]`. -/
def execMfc3 (rt rd : Reg) (s : State) : Result := s.onCop 3 (s.finishMove rt (regGet s.cpr3 rd))

/-- `mtc3` (rule R280): `x[rt]` to `cpr[3][rd]`. -/
def execMtc3 (rt rd : Reg) (s : State) : Result :=
  s.onCop 3 ({ s with cpr3 := regSet s.cpr3 rd (s.x rt) }.complete {})

/-- `cfc3` (rule R278): `ccr[3][rd]` to `x[rt]`. -/
def execCfc3 (rt rd : Reg) (s : State) : Result := s.onCop 3 (s.finishMove rt (regGet s.ccr3 rd))

/-- `ctc3` (rule R279): `x[rt]` to `ccr[3][rd]`. -/
def execCtc3 (rt rd : Reg) (s : State) : Result :=
  s.onCop 3 ({ s with ccr3 := regSet s.ccr3 rd (s.x rt) }.complete {})

end Sys2Proof.Machine
end

