-- ==== Sys2Proof/Machine/FloatingPoint.lean ====
section
/-! DEFINITION. The floating-point instructions (`45_floating_point.md`), over the functions of the parameter
`FP`. -/

namespace Sys2Proof.Machine

/-- `add.s` (rule R303): the sum, rounded once under RM. -/
def execAddS (fd fs ft : Reg) (s : State) : Result :=
  s.onCop 1 (s.finishS fd (s.fp.add32 s.roundMode (s.f fs) (s.f ft)))

/-- `add.d` (rule R302): the sum, rounded once under RM. -/
def execAddD (fd fs ft : Reg) (s : State) : Result :=
  s.onCop 1 (State.onEven [fd, fs, ft] (s.finishD fd (s.fp.add64 s.roundMode (s.d fs) (s.d ft))))

/-- `sub.s` (rule R343): the difference, rounded once under RM. -/
def execSubS (fd fs ft : Reg) (s : State) : Result :=
  s.onCop 1 (s.finishS fd (s.fp.sub32 s.roundMode (s.f fs) (s.f ft)))

/-- `sub.d` (rule R342): the difference, rounded once under RM. -/
def execSubD (fd fs ft : Reg) (s : State) : Result :=
  s.onCop 1 (State.onEven [fd, fs, ft] (s.finishD fd (s.fp.sub64 s.roundMode (s.d fs) (s.d ft))))

/-- `mul.s` (rule R317): the product, rounded once under RM. -/
def execMulS (fd fs ft : Reg) (s : State) : Result :=
  s.onCop 1 (s.finishS fd (s.fp.mul32 s.roundMode (s.f fs) (s.f ft)))

/-- `mul.d` (rule R316): the product, rounded once under RM. -/
def execMulD (fd fs ft : Reg) (s : State) : Result :=
  s.onCop 1 (State.onEven [fd, fs, ft] (s.finishD fd (s.fp.mul64 s.roundMode (s.d fs) (s.d ft))))

/-- `div.s` (rule R311): the quotient, rounded once under RM. -/
def execDivS (fd fs ft : Reg) (s : State) : Result :=
  s.onCop 1 (s.finishS fd (s.fp.div32 s.roundMode (s.f fs) (s.f ft)))

/-- `div.d` (rule R310): the quotient, rounded once under RM. -/
def execDivD (fd fs ft : Reg) (s : State) : Result :=
  s.onCop 1 (State.onEven [fd, fs, ft] (s.finishD fd (s.fp.div64 s.roundMode (s.d fs) (s.d ft))))

/-- `abs.s` (rule R301): the absolute value; a NaN gives a drawn NaN. -/
def execAbsS (fd fs : Reg) (s : State) : Result := s.onCop 1 (s.finishS fd (s.fp.abs32 (s.f fs)))

/-- `abs.d` (rule R300): the absolute value; a NaN gives a drawn NaN. -/
def execAbsD (fd fs : Reg) (s : State) : Result :=
  s.onCop 1 (State.onEven [fd, fs] (s.finishD fd (s.fp.abs64 (s.d fs))))

/-- `neg.s` (rule R319): the negation; a NaN gives a drawn NaN. -/
def execNegS (fd fs : Reg) (s : State) : Result := s.onCop 1 (s.finishS fd (s.fp.neg32 (s.f fs)))

/-- `neg.d` (rule R318): the negation; a NaN gives a drawn NaN. -/
def execNegD (fd fs : Reg) (s : State) : Result :=
  s.onCop 1 (State.onEven [fd, fs] (s.finishD fd (s.fp.neg64 (s.d fs))))

/-- `mov.s` (rule R315): a copy of the bits. -/
def execMovS (fd fs : Reg) (s : State) : Result := s.onCop 1 ((s.setF fd (s.f fs)).complete {})

/-- `mov.d` (rule R314): a copy of the bits. -/
def execMovD (fd fs : Reg) (s : State) : Result :=
  s.onCop 1 (State.onEven [fd, fs] ((s.setD fd (s.d fs)).complete {}))

/-- `cvt.d.s` (rule R304): single to double. -/
def execCvtDS (fd fs : Reg) (s : State) : Result :=
  s.onCop 1 (State.onEven [fd] (s.finishD fd (s.fp.doubleOfSingle s.roundMode (s.f fs))))

/-- `cvt.d.w` (rule R305): integer to double. -/
def execCvtDW (fd fs : Reg) (s : State) : Result :=
  s.onCop 1 (State.onEven [fd] (s.finishD fd (s.fp.doubleOfWord s.roundMode (s.f fs))))

/-- `cvt.s.d` (rule R306): double to single, rounded under RM. -/
def execCvtSD (fd fs : Reg) (s : State) : Result :=
  s.onCop 1 (State.onEven [fs] (s.finishS fd (s.fp.singleOfDouble s.roundMode (s.d fs))))

/-- `cvt.s.w` (rule R307): integer to single, rounded under RM. -/
def execCvtSW (fd fs : Reg) (s : State) : Result :=
  s.onCop 1 (s.finishS fd (s.fp.singleOfWord s.roundMode (s.f fs)))

/-- `cvt.w.d` (rule R308): double to integer, rounded under RM; unrepresentable gives a draw. -/
def execCvtWD (fd fs : Reg) (s : State) : Result :=
  s.onCop 1 (State.onEven [fs] (s.finishW fd (s.fp.wordOfDouble s.roundMode (s.d fs))))

/-- `cvt.w.s` (rule R309): single to integer, rounded under RM; unrepresentable gives a draw. -/
def execCvtWS (fd fs : Reg) (s : State) : Result :=
  s.onCop 1 (s.finishW fd (s.fp.wordOfSingle s.roundMode (s.f fs)))

/-! The sixteen compares: `cond` is bits 3:0 of the function field (rules R97, R320). -/

/-- `c.f.s` (rule R321): `fcc` never true. -/
def execCFS (fs ft : Reg) (s : State) : Result := s.compareS 0 fs ft

/-- `c.f.d` (rule R321): `fcc` never true. -/
def execCFD (fs ft : Reg) (s : State) : Result := s.compareD 0 fs ft

/-- `c.un.s` (rule R322): `fcc` true if unordered. -/
def execCUnS (fs ft : Reg) (s : State) : Result := s.compareS 1 fs ft

/-- `c.un.d` (rule R322): `fcc` true if unordered. -/
def execCUnD (fs ft : Reg) (s : State) : Result := s.compareD 1 fs ft

/-- `c.eq.s` (rule R323): `fcc` true if equal. -/
def execCEqS (fs ft : Reg) (s : State) : Result := s.compareS 2 fs ft

/-- `c.eq.d` (rule R323): `fcc` true if equal. -/
def execCEqD (fs ft : Reg) (s : State) : Result := s.compareD 2 fs ft

/-- `c.ueq.s` (rule R324): `fcc` true if unordered or equal. -/
def execCUeqS (fs ft : Reg) (s : State) : Result := s.compareS 3 fs ft

/-- `c.ueq.d` (rule R324): `fcc` true if unordered or equal. -/
def execCUeqD (fs ft : Reg) (s : State) : Result := s.compareD 3 fs ft

/-- `c.olt.s` (rule R325): `fcc` true if less. -/
def execCOltS (fs ft : Reg) (s : State) : Result := s.compareS 4 fs ft

/-- `c.olt.d` (rule R325): `fcc` true if less. -/
def execCOltD (fs ft : Reg) (s : State) : Result := s.compareD 4 fs ft

/-- `c.ult.s` (rule R326): `fcc` true if unordered or less. -/
def execCUltS (fs ft : Reg) (s : State) : Result := s.compareS 5 fs ft

/-- `c.ult.d` (rule R326): `fcc` true if unordered or less. -/
def execCUltD (fs ft : Reg) (s : State) : Result := s.compareD 5 fs ft

/-- `c.ole.s` (rule R327): `fcc` true if less or equal. -/
def execCOleS (fs ft : Reg) (s : State) : Result := s.compareS 6 fs ft

/-- `c.ole.d` (rule R327): `fcc` true if less or equal. -/
def execCOleD (fs ft : Reg) (s : State) : Result := s.compareD 6 fs ft

/-- `c.ule.s` (rule R328): `fcc` true if unordered, less or equal. -/
def execCUleS (fs ft : Reg) (s : State) : Result := s.compareS 7 fs ft

/-- `c.ule.d` (rule R328): `fcc` true if unordered, less or equal. -/
def execCUleD (fs ft : Reg) (s : State) : Result := s.compareD 7 fs ft

/-- `c.sf.s` (rule R329): `fcc` never true. -/
def execCSfS (fs ft : Reg) (s : State) : Result := s.compareS 8 fs ft

/-- `c.sf.d` (rule R329): `fcc` never true. -/
def execCSfD (fs ft : Reg) (s : State) : Result := s.compareD 8 fs ft

/-- `c.ngle.s` (rule R330): `fcc` true if unordered. -/
def execCNgleS (fs ft : Reg) (s : State) : Result := s.compareS 9 fs ft

/-- `c.ngle.d` (rule R330): `fcc` true if unordered. -/
def execCNgleD (fs ft : Reg) (s : State) : Result := s.compareD 9 fs ft

/-- `c.seq.s` (rule R331): `fcc` true if equal. -/
def execCSeqS (fs ft : Reg) (s : State) : Result := s.compareS 10 fs ft

/-- `c.seq.d` (rule R331): `fcc` true if equal. -/
def execCSeqD (fs ft : Reg) (s : State) : Result := s.compareD 10 fs ft

/-- `c.ngl.s` (rule R332): `fcc` true if unordered or equal. -/
def execCNglS (fs ft : Reg) (s : State) : Result := s.compareS 11 fs ft

/-- `c.ngl.d` (rule R332): `fcc` true if unordered or equal. -/
def execCNglD (fs ft : Reg) (s : State) : Result := s.compareD 11 fs ft

/-- `c.lt.s` (rule R333): `fcc` true if less. -/
def execCLtS (fs ft : Reg) (s : State) : Result := s.compareS 12 fs ft

/-- `c.lt.d` (rule R333): `fcc` true if less. -/
def execCLtD (fs ft : Reg) (s : State) : Result := s.compareD 12 fs ft

/-- `c.nge.s` (rule R334): `fcc` true if unordered or less. -/
def execCNgeS (fs ft : Reg) (s : State) : Result := s.compareS 13 fs ft

/-- `c.nge.d` (rule R334): `fcc` true if unordered or less. -/
def execCNgeD (fs ft : Reg) (s : State) : Result := s.compareD 13 fs ft

/-- `c.le.s` (rule R335): `fcc` true if less or equal. -/
def execCLeS (fs ft : Reg) (s : State) : Result := s.compareS 14 fs ft

/-- `c.le.d` (rule R335): `fcc` true if less or equal. -/
def execCLeD (fs ft : Reg) (s : State) : Result := s.compareD 14 fs ft

/-- `c.ngt.s` (rule R336): `fcc` true if unordered, less or equal. -/
def execCNgtS (fs ft : Reg) (s : State) : Result := s.compareS 15 fs ft

/-- `c.ngt.d` (rule R336): `fcc` true if unordered, less or equal. -/
def execCNgtD (fs ft : Reg) (s : State) : Result := s.compareD 15 fs ft

end Sys2Proof.Machine
end

