-- ==== Sys2Proof/Machine/LoadStore.lean ====
section
/-! DEFINITION. The load and store instructions (`43_load_store.md`). -/

namespace Sys2Proof.Machine

/-- `lb` (rule R240): the byte at the address, sign-extended. -/
def execLb (rt base : Reg) (offset : BitVec 16) (s : State) : Result :=
  s.finishLoad rt ((s.loadByte (s.ea base offset)).map (BitVec.signExtend 32))

/-- `lbu` (rule R241): the byte at the address, zero-extended. -/
def execLbu (rt base : Reg) (offset : BitVec 16) (s : State) : Result :=
  s.finishLoad rt ((s.loadByte (s.ea base offset)).map (BitVec.setWidth 32))

/-- `lh` (rule R242): the halfword at the address, sign-extended. -/
def execLh (rt base : Reg) (offset : BitVec 16) (s : State) : Result :=
  s.finishLoad rt ((s.loadHalf (s.ea base offset)).map (BitVec.signExtend 32))

/-- `lhu` (rule R243): the halfword at the address, zero-extended. -/
def execLhu (rt base : Reg) (offset : BitVec 16) (s : State) : Result :=
  s.finishLoad rt ((s.loadHalf (s.ea base offset)).map (BitVec.setWidth 32))

/-- `lw` (rule R244): the word at the address. -/
def execLw (rt base : Reg) (offset : BitVec 16) (s : State) : Result :=
  s.finishLoad rt (s.loadWord (s.ea base offset))

/-- `lwl` (rule R246): the left bytes at the address, merged into `x[rt]`. -/
def execLwl (rt base : Reg) (offset : BitVec 16) (s : State) : Result :=
  s.finishLoad rt (s.loadPart true (s.ea base offset) (s.x rt))

/-- `lwr` (rule R247): the right bytes at the address, merged into `x[rt]`. -/
def execLwr (rt base : Reg) (offset : BitVec 16) (s : State) : Result :=
  s.finishLoad rt (s.loadPart false (s.ea base offset) (s.x rt))

/-- `sb` (rule R250): the low byte of `x[rt]` to the address. -/
def execSb (rt base : Reg) (offset : BitVec 16) (s : State) : Result :=
  s.finishStore (s.store (s.ea base offset) [(s.x rt).extractLsb' 0 8])

/-- `sh` (rule R251): the low halfword of `x[rt]` to the address. -/
def execSh (rt base : Reg) (offset : BitVec 16) (s : State) : Result :=
  s.finishStore (s.store (s.ea base offset) (halfBytes s.cfg.bigEndian ((s.x rt).extractLsb' 0 16)))

/-- `sw` (rule R252): `x[rt]` to the address. -/
def execSw (rt base : Reg) (offset : BitVec 16) (s : State) : Result :=
  s.finishStore (s.store (s.ea base offset) (wordBytes s.cfg.bigEndian (s.x rt)))

/-- `swl` (rule R254): the left bytes of `x[rt]` to the address. -/
def execSwl (rt base : Reg) (offset : BitVec 16) (s : State) : Result :=
  s.finishStore (s.storePart true (s.ea base offset) (s.x rt))

/-- `swr` (rule R255): the right bytes of `x[rt]` to the address. -/
def execSwr (rt base : Reg) (offset : BitVec 16) (s : State) : Result :=
  s.finishStore (s.storePart false (s.ea base offset) (s.x rt))

/-- `lwc0` (rule R245): refused in both trap models (rule R355). -/
def execLwc0 (_rt _base : Reg) (_offset : BitVec 16) (_s : State) : Result := .refused .cop0LoadStore

/-- `swc0` (rule R253): refused in both trap models (rule R355). -/
def execSwc0 (_rt _base : Reg) (_offset : BitVec 16) (_s : State) : Result := .refused .cop0LoadStore

/-- `lwc1` (rule R245): the word at the address to `f[rt]`. -/
def execLwc1 (rt base : Reg) (offset : BitVec 16) (s : State) : Result :=
  s.onCop 1 (s.loadThen (s.loadWord (s.ea base offset)) fun v =>
    (s.setF rt v).complete { pending := .fpr rt })

/-- `swc1` (rule R253): `f[rt]` to the address. -/
def execSwc1 (rt base : Reg) (offset : BitVec 16) (s : State) : Result :=
  s.onCop 1 (s.finishStore (s.store (s.ea base offset) (wordBytes s.cfg.bigEndian (s.f rt))))

/-- `lwc2` (rule R245): the word at the address to `cpr[2][rt]`. -/
def execLwc2 (rt base : Reg) (offset : BitVec 16) (s : State) : Result :=
  s.onCop 2 (s.loadThen (s.loadWord (s.ea base offset)) fun v =>
    { s with cpr2 := regSet s.cpr2 rt v }.complete {})

/-- `swc2` (rule R253): `cpr[2][rt]` to the address. -/
def execSwc2 (rt base : Reg) (offset : BitVec 16) (s : State) : Result :=
  s.onCop 2
    (s.finishStore (s.store (s.ea base offset) (wordBytes s.cfg.bigEndian (regGet s.cpr2 rt))))

/-- `lwc3` (rule R245): the word at the address to `cpr[3][rt]`. -/
def execLwc3 (rt base : Reg) (offset : BitVec 16) (s : State) : Result :=
  s.onCop 3 (s.loadThen (s.loadWord (s.ea base offset)) fun v =>
    { s with cpr3 := regSet s.cpr3 rt v }.complete {})

/-- `swc3` (rule R253): `cpr[3][rt]` to the address. -/
def execSwc3 (rt base : Reg) (offset : BitVec 16) (s : State) : Result :=
  s.onCop 3
    (s.finishStore (s.store (s.ea base offset) (wordBytes s.cfg.bigEndian (regGet s.cpr3 rt))))

end Sys2Proof.Machine
end

