-- ==== Sys2Proof/Machine/System.lean ====
section
/-! DEFINITION. The system and coprocessor-control instructions (`46_system.md`). -/

namespace Sys2Proof.Machine

/-- `syscall` (rule R351): raises `Syscall`; the code is not delivered. -/
def execSyscall (_code : BitVec 20) (s : State) : Result := s.raise .syscall

/-- `break` (rule R352): raises `Breakpoint`; the code is not delivered. -/
def execBrk (_code : BitVec 20) (s : State) : Result := s.raise .breakpoint

/-- `rfe` (rule R356): the pop of the Status stack. -/
def execRfe (s : State) : Result := s.onCop 0 (s.exceptionReturn.complete {})

/-- `tlbr` (rule R357): the indexed entry to EntryHi and EntryLo. -/
def execTlbr (s : State) : Result :=
  s.onCop 0
    (match s.tlb[s.indexField]? with
    | some e => { s with entryHi := e.hi, entryLo := e.lo }.complete {}
    | none => .refused .tlbIndexRange)

/-- `tlbwi` (rule R358): EntryHi and EntryLo to the indexed entry. -/
def execTlbwi (s : State) : Result :=
  s.onCop 0
    (if s.indexField < s.tlb.length then
      { s with tlb := s.tlb.set s.indexField ⟨s.entryHi, s.entryLo⟩ }.complete {}
    else .refused .tlbIndexRange)

/-- `tlbwr` (rule R359): EntryHi and EntryLo to an entry drawn from 8 up (notes/assumptions/13.md). -/
def execTlbwr (s : State) : Result :=
  s.onCop 0
    (if 8 < s.tlb.length then
      { s.drawn with
        tlb := s.tlb.set (randomEntry s.tlb.length (Config.freeIndex s.draws)) ⟨s.entryHi, s.entryLo⟩ }.complete {}
    else .refused .tlbIndexRange)

/-- `tlbp` (rule R360): the index of the entry EntryHi matches, or the probe-failed bit. -/
def execTlbp (s : State) : Result :=
  s.onCop 0
    (match tlbMatches s.tlb s.entryVpn s.asid with
    | [] => { s with index := 0x80000000 }.complete {}
    | [(_, i)] => { s with index := BitVec.ofNat 32 i <<< 8 }.complete {}
    | _ :: _ :: _ => .fault .tlbMultipleMatch)

/-- `cop2` (rule R361): the operation is the coprocessor's own: refused when coprocessor 2 is present and
usable. -/
def execCop2 (_cofun : BitVec 25) (s : State) : Result := s.onCop 2 (.refused .coprocessorOperation)

/-- `cop3` (rule R361): the operation is the coprocessor's own: refused when coprocessor 3 is present and
usable. -/
def execCop3 (_cofun : BitVec 25) (s : State) : Result := s.onCop 3 (.refused .coprocessorOperation)

end Sys2Proof.Machine
end

