-- ==== Sys2Proof/Machine/Hazards.lean ====
section
/-! DEFINITION. The hazard checks made between decoding and execution (`70_reset_and_hazards.md` rules R431
to R433, `10_state.md` rule R28), each under its parameter. -/

namespace Sys2Proof.Machine

/-- `gpr_sources(I)` (rule R431): the merge operand of `lwl` and `lwr` is exempt. -/
def gprSources : Instr → List Reg
  | .add _ rs rt | .addu _ rs rt | .sub _ rs rt | .subu _ rs rt | .and _ rs rt | .or _ rs rt
  | .xor _ rs rt | .nor _ rs rt | .slt _ rs rt | .sltu _ rs rt | .sllv _ rt rs | .srlv _ rt rs
  | .srav _ rt rs | .mult rs rt | .multu rs rt | .div rs rt | .divu rs rt | .beq rs rt _
  | .bne rs rt _ => [rs, rt]
  | .sb rt base _ | .sh rt base _ | .sw rt base _ | .swl rt base _ | .swr rt base _ => [base, rt]
  | .addi _ rs _ | .addiu _ rs _ | .andi _ rs _ | .ori _ rs _ | .xori _ rs _ | .slti _ rs _
  | .sltiu _ rs _ | .blez rs _ | .bgtz rs _ | .bltz rs _ | .bgez rs _ | .bltzal rs _
  | .bgezal rs _ | .jr rs | .jalr rs _ | .mthi rs | .mtlo rs => [rs]
  | .lb _ base _ | .lbu _ base _ | .lh _ base _ | .lhu _ base _ | .lw _ base _ | .lwl _ base _
  | .lwr _ base _ | .lwc0 _ base _ | .swc0 _ base _ | .lwc1 _ base _ | .swc1 _ base _
  | .lwc2 _ base _ | .swc2 _ base _ | .lwc3 _ base _ | .swc3 _ base _ => [base]
  | .sll _ rt _ | .srl _ rt _ | .sra _ rt _ | .mtc0 rt _ | .ctc0 rt _ | .mtc1 rt _ | .ctc1 rt _
  | .mtc2 rt _ | .ctc2 rt _ | .mtc3 rt _ | .ctc3 rt _ => [rt]
  | .mfhi _ | .mflo _ | .syscall _ | .brk _ | .lui _ _ | .j _ | .jal _ | .mfc0 _ _ | .cfc0 _ _
  | .bc0f _ | .bc0t _ | .mfc1 _ _ | .cfc1 _ _ | .bc1f _ | .bc1t _ | .mfc2 _ _ | .cfc2 _ _
  | .bc2f _ | .bc2t _ | .mfc3 _ _ | .cfc3 _ _ | .bc3f _ | .bc3t _ | .tlbr | .tlbwi | .tlbwr
  | .tlbp | .rfe | .cop2 _ | .cop3 _ | .absD _ _ | .absS _ _ | .addD _ _ _ | .addS _ _ _
  | .cvtDS _ _ | .cvtDW _ _ | .cvtSD _ _ | .cvtSW _ _ | .cvtWD _ _ | .cvtWS _ _ | .divD _ _ _
  | .divS _ _ _ | .movD _ _ | .movS _ _ | .mulD _ _ _ | .mulS _ _ _ | .negD _ _ | .negS _ _
  | .subD _ _ _ | .subS _ _ _ | .cFS _ _ | .cFD _ _ | .cUnS _ _ | .cUnD _ _ | .cEqS _ _
  | .cEqD _ _ | .cUeqS _ _ | .cUeqD _ _ | .cOltS _ _ | .cOltD _ _ | .cUltS _ _ | .cUltD _ _
  | .cOleS _ _ | .cOleD _ _ | .cUleS _ _ | .cUleD _ _ | .cSfS _ _ | .cSfD _ _ | .cNgleS _ _
  | .cNgleD _ _ | .cSeqS _ _ | .cSeqD _ _ | .cNglS _ _ | .cNglD _ _ | .cLtS _ _ | .cLtD _ _
  | .cNgeS _ _ | .cNgeD _ _ | .cLeS _ _ | .cLeD _ _ | .cNgtS _ _ | .cNgtD _ _ => []

/-- Both registers of the pair a double lies in. -/
def pairOf (r : Reg) : List Reg := [r &&& 30, r ||| 1]

/-- `fpr_sources(I)` (rule R431), a double-precision operand counting both registers of its pair. -/
def fprSources : Instr → List Reg
  | .addS _ fs ft | .divS _ fs ft | .mulS _ fs ft | .subS _ fs ft | .cFS fs ft | .cUnS fs ft
  | .cEqS fs ft | .cUeqS fs ft | .cOltS fs ft | .cUltS fs ft | .cOleS fs ft | .cUleS fs ft
  | .cSfS fs ft | .cNgleS fs ft | .cSeqS fs ft | .cNglS fs ft | .cLtS fs ft | .cNgeS fs ft
  | .cLeS fs ft | .cNgtS fs ft => [fs, ft]
  | .addD _ fs ft | .divD _ fs ft | .mulD _ fs ft | .subD _ fs ft | .cFD fs ft | .cUnD fs ft
  | .cEqD fs ft | .cUeqD fs ft | .cOltD fs ft | .cUltD fs ft | .cOleD fs ft | .cUleD fs ft
  | .cSfD fs ft | .cNgleD fs ft | .cSeqD fs ft | .cNglD fs ft | .cLtD fs ft | .cNgeD fs ft
  | .cLeD fs ft | .cNgtD fs ft => pairOf fs ++ pairOf ft
  | .absS _ fs | .cvtDS _ fs | .cvtDW _ fs | .cvtSW _ fs | .cvtWS _ fs | .movS _ fs | .negS _ fs => [fs]
  | .absD _ fs | .movD _ fs | .negD _ fs | .cvtSD _ fs | .cvtWD _ fs => pairOf fs
  | .swc1 rt _ _ => [rt]
  | .mfc1 _ rd => [rd]
  | .add _ _ _ | .addu _ _ _ | .and _ _ _ | .nor _ _ _ | .or _ _ _ | .sub _ _ _ | .subu _ _ _
  | .xor _ _ _ | .slt _ _ _ | .sltu _ _ _ | .sllv _ _ _ | .srav _ _ _ | .srlv _ _ _ | .sll _ _ _
  | .sra _ _ _ | .srl _ _ _ | .div _ _ | .divu _ _ | .mult _ _ | .multu _ _ | .jr _ | .jalr _ _
  | .mthi _ | .mtlo _ | .mfhi _ | .mflo _ | .syscall _ | .brk _ | .addi _ _ _ | .addiu _ _ _
  | .andi _ _ _ | .ori _ _ _ | .xori _ _ _ | .lui _ _ | .slti _ _ _ | .sltiu _ _ _ | .beq _ _ _
  | .bne _ _ _ | .blez _ _ | .bgtz _ _ | .bltz _ _ | .bgez _ _ | .bltzal _ _ | .bgezal _ _ | .j _
  | .jal _ | .lb _ _ _ | .lbu _ _ _ | .lh _ _ _ | .lhu _ _ _ | .lw _ _ _ | .lwl _ _ _
  | .lwr _ _ _ | .sb _ _ _ | .sh _ _ _ | .sw _ _ _ | .swl _ _ _ | .swr _ _ _ | .lwc0 _ _ _
  | .swc0 _ _ _ | .lwc1 _ _ _ | .lwc2 _ _ _ | .swc2 _ _ _ | .lwc3 _ _ _ | .swc3 _ _ _ | .mfc0 _ _
  | .cfc0 _ _ | .mtc0 _ _ | .ctc0 _ _ | .bc0f _ | .bc0t _ | .cfc1 _ _ | .mtc1 _ _ | .ctc1 _ _
  | .bc1f _ | .bc1t _ | .mfc2 _ _ | .cfc2 _ _ | .mtc2 _ _ | .ctc2 _ _ | .bc2f _ | .bc2t _
  | .mfc3 _ _ | .cfc3 _ _ | .mtc3 _ _ | .ctc3 _ _ | .bc3f _ | .bc3t _ | .tlbr | .tlbwi | .tlbwr
  | .tlbp | .rfe | .cop2 _ | .cop3 _ => []

/-- "I is a branch or jump" (rule R27), taken or not. -/
def isBranch : Instr → Bool
  | .j _ | .jal _ | .jr _ | .jalr _ _ | .beq _ _ _ | .bne _ _ _ | .blez _ _ | .bgtz _ _
  | .bltz _ _ | .bgez _ _ | .bltzal _ _ | .bgezal _ _ | .bc0f _ | .bc0t _ | .bc1f _ | .bc1t _
  | .bc2f _ | .bc2t _ | .bc3f _ | .bc3t _ => true
  | .add _ _ _ | .addu _ _ _ | .and _ _ _ | .nor _ _ _ | .or _ _ _ | .sub _ _ _ | .subu _ _ _
  | .xor _ _ _ | .slt _ _ _ | .sltu _ _ _ | .sllv _ _ _ | .srav _ _ _ | .srlv _ _ _ | .sll _ _ _
  | .sra _ _ _ | .srl _ _ _ | .div _ _ | .divu _ _ | .mult _ _ | .multu _ _ | .mthi _ | .mtlo _
  | .mfhi _ | .mflo _ | .syscall _ | .brk _ | .addi _ _ _ | .addiu _ _ _ | .andi _ _ _
  | .ori _ _ _ | .xori _ _ _ | .lui _ _ | .slti _ _ _ | .sltiu _ _ _ | .lb _ _ _ | .lbu _ _ _
  | .lh _ _ _ | .lhu _ _ _ | .lw _ _ _ | .lwl _ _ _ | .lwr _ _ _ | .sb _ _ _ | .sh _ _ _
  | .sw _ _ _ | .swl _ _ _ | .swr _ _ _ | .lwc0 _ _ _ | .swc0 _ _ _ | .lwc1 _ _ _ | .swc1 _ _ _
  | .lwc2 _ _ _ | .swc2 _ _ _ | .lwc3 _ _ _ | .swc3 _ _ _ | .mfc0 _ _ | .cfc0 _ _ | .mtc0 _ _
  | .ctc0 _ _ | .mfc1 _ _ | .cfc1 _ _ | .mtc1 _ _ | .ctc1 _ _ | .mfc2 _ _ | .cfc2 _ _ | .mtc2 _ _
  | .ctc2 _ _ | .mfc3 _ _ | .cfc3 _ _ | .mtc3 _ _ | .ctc3 _ _ | .tlbr | .tlbwi | .tlbwr | .tlbp
  | .rfe | .cop2 _ | .cop3 _ | .absD _ _ | .absS _ _ | .addD _ _ _ | .addS _ _ _ | .cvtDS _ _
  | .cvtDW _ _ | .cvtSD _ _ | .cvtSW _ _ | .cvtWD _ _ | .cvtWS _ _ | .divD _ _ _ | .divS _ _ _
  | .movD _ _ | .movS _ _ | .mulD _ _ _ | .mulS _ _ _ | .negD _ _ | .negS _ _ | .subD _ _ _
  | .subS _ _ _ | .cFS _ _ | .cFD _ _ | .cUnS _ _ | .cUnD _ _ | .cEqS _ _ | .cEqD _ _
  | .cUeqS _ _ | .cUeqD _ _ | .cOltS _ _ | .cOltD _ _ | .cUltS _ _ | .cUltD _ _ | .cOleS _ _
  | .cOleD _ _ | .cUleS _ _ | .cUleD _ _ | .cSfS _ _ | .cSfD _ _ | .cNgleS _ _ | .cNgleD _ _
  | .cSeqS _ _ | .cSeqD _ _ | .cNglS _ _ | .cNglD _ _ | .cLtS _ _ | .cLtD _ _ | .cNgeS _ _
  | .cNgeD _ _ | .cLeS _ _ | .cLeD _ _ | .cNgtS _ _ | .cNgtD _ _ => false

/-- The instructions that write `hi` or `lo` (rule R432). -/
def writesHiLo : Instr → Bool
  | .mult _ _ | .multu _ _ | .div _ _ | .divu _ _ | .mthi _ | .mtlo _ => true
  | .add _ _ _ | .addu _ _ _ | .and _ _ _ | .nor _ _ _ | .or _ _ _ | .sub _ _ _ | .subu _ _ _
  | .xor _ _ _ | .slt _ _ _ | .sltu _ _ _ | .sllv _ _ _ | .srav _ _ _ | .srlv _ _ _ | .sll _ _ _
  | .sra _ _ _ | .srl _ _ _ | .jr _ | .jalr _ _ | .mfhi _ | .mflo _ | .syscall _ | .brk _
  | .addi _ _ _ | .addiu _ _ _ | .andi _ _ _ | .ori _ _ _ | .xori _ _ _ | .lui _ _ | .slti _ _ _
  | .sltiu _ _ _ | .beq _ _ _ | .bne _ _ _ | .blez _ _ | .bgtz _ _ | .bltz _ _ | .bgez _ _
  | .bltzal _ _ | .bgezal _ _ | .j _ | .jal _ | .lb _ _ _ | .lbu _ _ _ | .lh _ _ _ | .lhu _ _ _
  | .lw _ _ _ | .lwl _ _ _ | .lwr _ _ _ | .sb _ _ _ | .sh _ _ _ | .sw _ _ _ | .swl _ _ _
  | .swr _ _ _ | .lwc0 _ _ _ | .swc0 _ _ _ | .lwc1 _ _ _ | .swc1 _ _ _ | .lwc2 _ _ _
  | .swc2 _ _ _ | .lwc3 _ _ _ | .swc3 _ _ _ | .mfc0 _ _ | .cfc0 _ _ | .mtc0 _ _ | .ctc0 _ _
  | .bc0f _ | .bc0t _ | .mfc1 _ _ | .cfc1 _ _ | .mtc1 _ _ | .ctc1 _ _ | .bc1f _ | .bc1t _
  | .mfc2 _ _ | .cfc2 _ _ | .mtc2 _ _ | .ctc2 _ _ | .bc2f _ | .bc2t _ | .mfc3 _ _ | .cfc3 _ _
  | .mtc3 _ _ | .ctc3 _ _ | .bc3f _ | .bc3t _ | .tlbr | .tlbwi | .tlbwr | .tlbp | .rfe | .cop2 _
  | .cop3 _ | .absD _ _ | .absS _ _ | .addD _ _ _ | .addS _ _ _ | .cvtDS _ _ | .cvtDW _ _
  | .cvtSD _ _ | .cvtSW _ _ | .cvtWD _ _ | .cvtWS _ _ | .divD _ _ _ | .divS _ _ _ | .movD _ _
  | .movS _ _ | .mulD _ _ _ | .mulS _ _ _ | .negD _ _ | .negS _ _ | .subD _ _ _ | .subS _ _ _
  | .cFS _ _ | .cFD _ _ | .cUnS _ _ | .cUnD _ _ | .cEqS _ _ | .cEqD _ _ | .cUeqS _ _ | .cUeqD _ _
  | .cOltS _ _ | .cOltD _ _ | .cUltS _ _ | .cUltD _ _ | .cOleS _ _ | .cOleD _ _ | .cUleS _ _
  | .cUleD _ _ | .cSfS _ _ | .cSfD _ _ | .cNgleS _ _ | .cNgleD _ _ | .cSeqS _ _ | .cSeqD _ _
  | .cNglS _ _ | .cNglD _ _ | .cLtS _ _ | .cLtD _ _ | .cNgeS _ _ | .cNgeD _ _ | .cLeS _ _
  | .cLeD _ _ | .cNgtS _ _ | .cNgtD _ _ => false

/-- The instructions that read `fcc` to branch (rule R433). -/
def readsFcc : Instr → Bool
  | .bc1f _ | .bc1t _ => true
  | .add _ _ _ | .addu _ _ _ | .and _ _ _ | .nor _ _ _ | .or _ _ _ | .sub _ _ _ | .subu _ _ _
  | .xor _ _ _ | .slt _ _ _ | .sltu _ _ _ | .sllv _ _ _ | .srav _ _ _ | .srlv _ _ _ | .sll _ _ _
  | .sra _ _ _ | .srl _ _ _ | .div _ _ | .divu _ _ | .mult _ _ | .multu _ _ | .jr _ | .jalr _ _
  | .mthi _ | .mtlo _ | .mfhi _ | .mflo _ | .syscall _ | .brk _ | .addi _ _ _ | .addiu _ _ _
  | .andi _ _ _ | .ori _ _ _ | .xori _ _ _ | .lui _ _ | .slti _ _ _ | .sltiu _ _ _ | .beq _ _ _
  | .bne _ _ _ | .blez _ _ | .bgtz _ _ | .bltz _ _ | .bgez _ _ | .bltzal _ _ | .bgezal _ _ | .j _
  | .jal _ | .lb _ _ _ | .lbu _ _ _ | .lh _ _ _ | .lhu _ _ _ | .lw _ _ _ | .lwl _ _ _
  | .lwr _ _ _ | .sb _ _ _ | .sh _ _ _ | .sw _ _ _ | .swl _ _ _ | .swr _ _ _ | .lwc0 _ _ _
  | .swc0 _ _ _ | .lwc1 _ _ _ | .swc1 _ _ _ | .lwc2 _ _ _ | .swc2 _ _ _ | .lwc3 _ _ _
  | .swc3 _ _ _ | .mfc0 _ _ | .cfc0 _ _ | .mtc0 _ _ | .ctc0 _ _ | .bc0f _ | .bc0t _ | .mfc1 _ _
  | .cfc1 _ _ | .mtc1 _ _ | .ctc1 _ _ | .mfc2 _ _ | .cfc2 _ _ | .mtc2 _ _ | .ctc2 _ _ | .bc2f _
  | .bc2t _ | .mfc3 _ _ | .cfc3 _ _ | .mtc3 _ _ | .ctc3 _ _ | .bc3f _ | .bc3t _ | .tlbr | .tlbwi
  | .tlbwr | .tlbp | .rfe | .cop2 _ | .cop3 _ | .absD _ _ | .absS _ _ | .addD _ _ _ | .addS _ _ _
  | .cvtDS _ _ | .cvtDW _ _ | .cvtSD _ _ | .cvtSW _ _ | .cvtWD _ _ | .cvtWS _ _ | .divD _ _ _
  | .divS _ _ _ | .movD _ _ | .movS _ _ | .mulD _ _ _ | .mulS _ _ _ | .negD _ _ | .negS _ _
  | .subD _ _ _ | .subS _ _ _ | .cFS _ _ | .cFD _ _ | .cUnS _ _ | .cUnD _ _ | .cEqS _ _
  | .cEqD _ _ | .cUeqS _ _ | .cUeqD _ _ | .cOltS _ _ | .cOltD _ _ | .cUltS _ _ | .cUltD _ _
  | .cOleS _ _ | .cOleD _ _ | .cUleS _ _ | .cUleD _ _ | .cSfS _ _ | .cSfD _ _ | .cNgleS _ _
  | .cNgleD _ _ | .cSeqS _ _ | .cSeqD _ _ | .cNglS _ _ | .cNglD _ _ | .cLtS _ _ | .cLtD _ _
  | .cNgeS _ _ | .cNgeD _ _ | .cLeS _ _ | .cLeD _ _ | .cNgtS _ _ | .cNgtD _ _ => false

/-- The instruction reads the register the one before it loaded (rule R431). -/
def loadUse (p : Pending) (i : Instr) : Bool :=
  match p with
  | .none => false
  | .gpr r => r ≠ 0 && (gprSources i).contains r
  | .fpr r => (fprSources i).contains r

/-- The first hazard fault of rules R431, R432, R433, R28, in the order of rule R27. -/
def State.hazard (s : State) (i : Instr) : Option Fault :=
  if s.cfg.loadDelay && loadUse s.loadPending i then some .loadUseHazard
  else if s.cfg.hiloHazard && writesHiLo i && s.hiloAge < 2 then some .hiLoHazard
  else if s.cfg.loadDelay && readsFcc i && s.fccFresh then some .fccHazard
  else if s.cfg.delaySlots && s.inDelay && isBranch i then some .branchInDelaySlot
  else none

/-- The coprocessor an instruction belongs to: op 16 to 19, `lwcz`, `swcz` (rule R101). -/
def coprocessor : Instr → Option CopNum
  | .lwc0 _ _ _ | .swc0 _ _ _ | .mfc0 _ _ | .cfc0 _ _ | .mtc0 _ _ | .ctc0 _ _ | .bc0f _ | .bc0t _
  | .tlbr | .tlbwi | .tlbwr | .tlbp | .rfe => some 0
  | .lwc1 _ _ _ | .swc1 _ _ _ | .mfc1 _ _ | .cfc1 _ _ | .mtc1 _ _ | .ctc1 _ _ | .bc1f _ | .bc1t _
  | .absD _ _ | .absS _ _ | .addD _ _ _ | .addS _ _ _ | .cvtDS _ _ | .cvtDW _ _ | .cvtSD _ _
  | .cvtSW _ _ | .cvtWD _ _ | .cvtWS _ _ | .divD _ _ _ | .divS _ _ _ | .movD _ _ | .movS _ _
  | .mulD _ _ _ | .mulS _ _ _ | .negD _ _ | .negS _ _ | .subD _ _ _ | .subS _ _ _ | .cFS _ _
  | .cFD _ _ | .cUnS _ _ | .cUnD _ _ | .cEqS _ _ | .cEqD _ _ | .cUeqS _ _ | .cUeqD _ _
  | .cOltS _ _ | .cOltD _ _ | .cUltS _ _ | .cUltD _ _ | .cOleS _ _ | .cOleD _ _ | .cUleS _ _
  | .cUleD _ _ | .cSfS _ _ | .cSfD _ _ | .cNgleS _ _ | .cNgleD _ _ | .cSeqS _ _ | .cSeqD _ _
  | .cNglS _ _ | .cNglD _ _ | .cLtS _ _ | .cLtD _ _ | .cNgeS _ _ | .cNgeD _ _ | .cLeS _ _
  | .cLeD _ _ | .cNgtS _ _ | .cNgtD _ _ => some 1
  | .lwc2 _ _ _ | .swc2 _ _ _ | .mfc2 _ _ | .cfc2 _ _ | .mtc2 _ _ | .ctc2 _ _ | .bc2f _ | .bc2t _
  | .cop2 _ => some 2
  | .lwc3 _ _ _ | .swc3 _ _ _ | .mfc3 _ _ | .cfc3 _ _ | .mtc3 _ _ | .ctc3 _ _ | .bc3f _ | .bc3t _
  | .cop3 _ => some 3
  | .add _ _ _ | .addu _ _ _ | .and _ _ _ | .nor _ _ _ | .or _ _ _ | .sub _ _ _ | .subu _ _ _
  | .xor _ _ _ | .slt _ _ _ | .sltu _ _ _ | .sllv _ _ _ | .srav _ _ _ | .srlv _ _ _ | .sll _ _ _
  | .sra _ _ _ | .srl _ _ _ | .div _ _ | .divu _ _ | .mult _ _ | .multu _ _ | .jr _ | .jalr _ _
  | .mthi _ | .mtlo _ | .mfhi _ | .mflo _ | .syscall _ | .brk _ | .addi _ _ _ | .addiu _ _ _
  | .andi _ _ _ | .ori _ _ _ | .xori _ _ _ | .lui _ _ | .slti _ _ _ | .sltiu _ _ _ | .beq _ _ _
  | .bne _ _ _ | .blez _ _ | .bgtz _ _ | .bltz _ _ | .bgez _ _ | .bltzal _ _ | .bgezal _ _ | .j _
  | .jal _ | .lb _ _ _ | .lbu _ _ _ | .lh _ _ _ | .lhu _ _ _ | .lw _ _ _ | .lwl _ _ _
  | .lwr _ _ _ | .sb _ _ _ | .sh _ _ _ | .sw _ _ _ | .swl _ _ _ | .swr _ _ _ => none

/-- `lwc0` and `swc0`, refused before the usability test (rules R101, R355). -/
def isCop0LoadStore : Instr → Bool
  | .lwc0 _ _ _ | .swc0 _ _ _ => true
  | .add _ _ _ | .addu _ _ _ | .and _ _ _ | .nor _ _ _ | .or _ _ _ | .sub _ _ _ | .subu _ _ _
  | .xor _ _ _ | .slt _ _ _ | .sltu _ _ _ | .sllv _ _ _ | .srav _ _ _ | .srlv _ _ _ | .sll _ _ _
  | .sra _ _ _ | .srl _ _ _ | .div _ _ | .divu _ _ | .mult _ _ | .multu _ _ | .jr _ | .jalr _ _
  | .mthi _ | .mtlo _ | .mfhi _ | .mflo _ | .syscall _ | .brk _ | .addi _ _ _ | .addiu _ _ _
  | .andi _ _ _ | .ori _ _ _ | .xori _ _ _ | .lui _ _ | .slti _ _ _ | .sltiu _ _ _ | .beq _ _ _
  | .bne _ _ _ | .blez _ _ | .bgtz _ _ | .bltz _ _ | .bgez _ _ | .bltzal _ _ | .bgezal _ _ | .j _
  | .jal _ | .lb _ _ _ | .lbu _ _ _ | .lh _ _ _ | .lhu _ _ _ | .lw _ _ _ | .lwl _ _ _
  | .lwr _ _ _ | .sb _ _ _ | .sh _ _ _ | .sw _ _ _ | .swl _ _ _ | .swr _ _ _ | .lwc1 _ _ _
  | .swc1 _ _ _ | .lwc2 _ _ _ | .swc2 _ _ _ | .lwc3 _ _ _ | .swc3 _ _ _ | .mfc0 _ _ | .cfc0 _ _
  | .mtc0 _ _ | .ctc0 _ _ | .bc0f _ | .bc0t _ | .mfc1 _ _ | .cfc1 _ _ | .mtc1 _ _ | .ctc1 _ _
  | .bc1f _ | .bc1t _ | .mfc2 _ _ | .cfc2 _ _ | .mtc2 _ _ | .ctc2 _ _ | .bc2f _ | .bc2t _
  | .mfc3 _ _ | .cfc3 _ _ | .mtc3 _ _ | .ctc3 _ _ | .bc3f _ | .bc3t _ | .tlbr | .tlbwi | .tlbwr
  | .tlbp | .rfe | .cop2 _ | .cop3 _ | .absD _ _ | .absS _ _ | .addD _ _ _ | .addS _ _ _
  | .cvtDS _ _ | .cvtDW _ _ | .cvtSD _ _ | .cvtSW _ _ | .cvtWD _ _ | .cvtWS _ _ | .divD _ _ _
  | .divS _ _ _ | .movD _ _ | .movS _ _ | .mulD _ _ _ | .mulS _ _ _ | .negD _ _ | .negS _ _
  | .subD _ _ _ | .subS _ _ _ | .cFS _ _ | .cFD _ _ | .cUnS _ _ | .cUnD _ _ | .cEqS _ _
  | .cEqD _ _ | .cUeqS _ _ | .cUeqD _ _ | .cOltS _ _ | .cOltD _ _ | .cUltS _ _ | .cUltD _ _
  | .cOleS _ _ | .cOleD _ _ | .cUleS _ _ | .cUleD _ _ | .cSfS _ _ | .cSfD _ _ | .cNgleS _ _
  | .cNgleD _ _ | .cSeqS _ _ | .cSeqD _ _ | .cNglS _ _ | .cNglD _ _ | .cLtS _ _ | .cLtD _ _
  | .cNgeS _ _ | .cNgeD _ _ | .cLeS _ _ | .cLeD _ _ | .cNgtS _ _ | .cNgtD _ _ => false

/-- What the decoder reports of an instruction before its should-be-zero check: the refusals of rule R355,
then `CoprocessorUnusable` (rules R84, R101, R383). -/
def State.decodeStop (s : State) (i : Instr) : Option Stop :=
  if isCop0LoadStore i then some (.refuse .cop0LoadStore)
  else
    match coprocessor i with
    | some z => s.gate z
    | none => none

/-- What follows decoding (rules R27, R84, R383): the decoder's reports, the hazard checks, then `run`. -/
def State.runDecoded (s : State) (run : Instr → State → Result) : Decoded → Result
  | .reserved z =>
    match z.bind s.gate with
    | some st => s.stop st
    | none => s.raise .reservedInstruction
  | .nonZeroSbz i =>
    match s.decodeStop i with
    | some st => s.stop st
    | none => .refused .nonZeroSbz
  | .instr i =>
    match s.decodeStop i with
    | some st => s.stop st
    | none =>
      match s.hazard i with
      | some r => .fault r
      | none => run i s

/-- One interrupt, or one instruction fetched, decoded and run (rule R27). -/
def State.cycle (s : State) (run : Instr → State → Result) : Result :=
  if s.interruptTaken then s.raise .interrupt
  else
    match s.fetch with
    | .error st => s.stop st
    | .ok w => s.runDecoded run (decode s.cfg w)

/-- A whole step: a state that is not running has none (rule R43), and a next state gets the inputs of the
step after it. -/
def State.stepWith (s : State) (run : Instr → State → Result) : Result :=
  match s.outcome with
  | .stopped _ => .fault .runEnded
  | .running => mapNext State.sampleInputs (s.cycle run)

end Sys2Proof.Machine
end

