-- ==== Sys2Proof/Machine/Step.lean ====
section
/-! DEFINITION. The step (`10_state.md` rule R27), and the placing of a word where the next step fetches. -/

namespace Sys2Proof.Machine

/-- One step of the machine: `State.stepWith` (Machine/Hazards.lean) around `exec`. -/
def step (s : State) : Host.Outcome State Fault Refusal := s.stepWith exec

/-- The state with the table's word stored where the next step fetches: a program put there from outside the
machine (notes/assumptions/15.md). -/
def State.withFetchWord (s : State) (nbits w : Nat) : State := s.placeWord (tableWord nbits w)

end Sys2Proof.Machine
end

