-- ==== Sys2Proof/Safety.lean ====
section
/-! DEFINITION. The terms the statements use: what a completed instruction leaves of the control state and of
every other piece of state, launch and reset states, safe runs, and the invariant of the machine. -/

namespace Sys2Proof.Machine

/-! ## What an instruction changes -/

/-- The pieces of state an instruction may change, but for `pc`, `npc`, `inDelay` and the hazard state, of
which `After` speaks. -/
inductive Part
  | gpr (r : Reg)
  | hi
  | lo
  | fpr (r : Reg)
  | fcc
  | rm
  | fcr0
  | cpr2 (r : Reg)
  | ccr2 (r : Reg)
  | cpr3 (r : Reg)
  | ccr3 (r : Reg)
  | index
  | random
  | entryLo
  | context
  | badVAddr
  | entryHi
  | status
  | cause
  | epc
  | prid
  | tlbSize
  | tlb (i : Nat)
  /-- the byte of memory at an address -/
  | byte (a : Nat)
  /-- whether an address is in `dirty` -/
  | dirty (a : Nat)
  | cfg
  | outcome
  | intPins
  | draws
  deriving DecidableEq, Repr

/-- A piece of state is the same in two states. -/
def Part.same (s t : State) : Part → Prop
  | .gpr r => t.x r = s.x r
  | .hi => t.hi = s.hi
  | .lo => t.lo = s.lo
  | .fpr r => t.f r = s.f r
  | .fcc => t.fcc = s.fcc
  | .rm => t.rm = s.rm
  | .fcr0 => t.fcr0 = s.fcr0
  | .cpr2 r => regGet t.cpr2 r = regGet s.cpr2 r
  | .ccr2 r => regGet t.ccr2 r = regGet s.ccr2 r
  | .cpr3 r => regGet t.cpr3 r = regGet s.cpr3 r
  | .ccr3 r => regGet t.ccr3 r = regGet s.ccr3 r
  | .index => t.index = s.index
  | .random => t.random = s.random
  | .entryLo => t.entryLo = s.entryLo
  | .context => t.context = s.context
  | .badVAddr => t.badVAddr = s.badVAddr
  | .entryHi => t.entryHi = s.entryHi
  | .status => t.status = s.status
  | .cause => t.cause = s.cause
  | .epc => t.epc = s.epc
  | .prid => t.prid = s.prid
  | .tlbSize => t.tlb.length = s.tlb.length
  | .tlb i => t.tlb[i]? = s.tlb[i]?
  | .byte a => t.byteAt a = s.byteAt a
  | .dirty a => a ∈ t.dirty ↔ a ∈ s.dirty
  | .cfg => t.cfg = s.cfg
  | .outcome => t.outcome = s.outcome
  | .intPins => t.intPins = s.intPins
  | .draws => t.draws = s.draws

/-- Nothing but the listed pieces of state has changed. -/
def Frame (s t : State) (changed : List Part) : Prop := ∀ p, p ∉ changed → p.same s t

/-- `pc`, `npc`, `in_delay` and the hazard state after an instruction that completed (rules R27, R431, R432,
R433): `c` says whether it branched and where, and what the hazard bookkeeping notes of it. -/
def After (s t : State) (c : Completion) : Prop :=
  (s.cfg.delaySlots = false →
    t.pc = c.target.getD (s.pc + 4) ∧ t.npc = s.npc ∧ t.inDelay = s.inDelay) ∧
  (s.cfg.delaySlots = true →
    t.pc = s.npc ∧ t.npc = c.target.getD (s.npc + 4) ∧ t.inDelay = c.branches) ∧
  t.loadPending = (if s.cfg.loadDelay then c.pending else s.loadPending) ∧
  t.fccFresh = (if s.cfg.loadDelay then c.fccFresh else s.fccFresh) ∧
  t.hiloAge =
    (if s.cfg.hiloHazard then (if c.readsHiLo then 0 else min 2 (s.hiloAge + 1)) else s.hiloAge)

/-- The bytes of memory from `a` to `a + n - 1`, and their places in `dirty`: what a store may change. -/
def storedAt (a n : Nat) : List Part :=
  (List.range n).flatMap fun i => [.byte (a + i), .dirty (a + i)]

/-- The rational a finite floating-point value stands for. -/
def signedQuot (neg : Bool) (n d : Nat) : ℚ := if neg then -((n : ℚ) / d) else (n : ℚ) / d

/-- A general register holds a value just written to it; register 0 discarded the write (rule R21). -/
def State.holds (t : State) (r : Reg) (v : Word) : Prop := t.x r = if r = 0 then 0 else v

/-- A single-precision result: the value, or, for `draw(NaN)`, some NaN (rule R293). -/
def State.holdsSingle (t : State) (fd : Reg) (r : Option Word) : Prop :=
  match r with
  | some v => t.f fd = v
  | none => val32 (t.f fd) = .nan

/-- A double-precision result: the value, or, for `draw(NaN)`, some NaN (rule R293). -/
def State.holdsDouble (t : State) (fd : Reg) (r : Option DWord) : Prop :=
  match r with
  | some v => t.d fd = v
  | none => val64 (t.d fd) = .nan

/-- A compare completes, `fcc` becomes `c`, and nothing else changes (rules R320, R433). -/
def ComparesTo (s : State) (i : Instr) (c : Bool) : Prop :=
  ∃ t, exec i s = .next t ∧ After s t { fccFresh := true } ∧ Frame s t [.fcc] ∧ t.fcc = c

/-- A branch completes, taken or not, to the target of rule R190, and nothing else changes. -/
def BranchesIf (s : State) (i : Instr) (taken : Bool) (offset : BitVec 16) (changed : List Part) : Prop :=
  ∃ t, exec i s = .next t ∧ Frame s t changed ∧
    After s t
      { branches := true
        target := if taken then some (BitVec.ofInt 32 (s.pc.toNat + 4 + 4 * offset.toInt)) else none }

/-- The value a linking instruction saves (rule R12). -/
def linkValue (s : State) : Word := if s.cfg.delaySlots then s.pc + 8 else s.pc + 4

/-- The cells the opcode map leaves blank, as rule R100 lists them, for a format value `FMT_W`. -/
def unassigned (fmtW : Nat) (w : Word) : Prop :=
  let op := (opOf w).toNat
  let rs := (rsOf w).toNat
  let rt := (rtOf w).toNat
  let fn := (functOf w).toNat
  let f4 := (cp0FunctOf w).toNat
  (20 ≤ op ∧ op ≤ 31) ∨ op = 39 ∨ op = 44 ∨ op = 45 ∨ op = 47 ∨ (52 ≤ op ∧ op ≤ 55) ∨ 60 ≤ op ∨
  (op = 0 ∧ (fn = 1 ∨ fn = 5 ∨ fn = 10 ∨ fn = 11 ∨ fn = 14 ∨ fn = 15 ∨ (20 ≤ fn ∧ fn ≤ 23) ∨
    (28 ≤ fn ∧ fn ≤ 31) ∨ fn = 40 ∨ fn = 41 ∨ 44 ≤ fn)) ∨
  (op = 1 ∧ ((2 ≤ rt ∧ rt ≤ 15) ∨ 18 ≤ rt)) ∨
  (16 ≤ op ∧ op ≤ 19 ∧ (rs = 1 ∨ rs = 3 ∨ rs = 5 ∨ rs = 7 ∨ (9 ≤ rs ∧ rs ≤ 15))) ∨
  (op = 16 ∧ rs = 16 ∧ (f4 = 0 ∨ f4 = 3 ∨ f4 = 4 ∨ f4 = 5 ∨ f4 = 7 ∨ (9 ≤ f4 ∧ f4 ≤ 15) ∨ 17 ≤ f4)) ∨
  (op = 16 ∧ 17 ≤ rs) ∨
  (op = 17 ∧ 18 ≤ rs ∧ rs ≠ fmtW) ∨
  (op = 17 ∧ (rs = 16 ∨ rs = 17) ∧
    (fn = 4 ∨ (8 ≤ fn ∧ fn ≤ 31) ∨ fn = 34 ∨ fn = 35 ∨ (37 ≤ fn ∧ fn ≤ 47))) ∨
  (op = 17 ∧ rs = 16 ∧ fn = 32) ∨ (op = 17 ∧ rs = 17 ∧ fn = 33) ∨
  (op = 17 ∧ rs = fmtW ∧ fn ≠ 32 ∧ fn ≠ 33)

/-- `usable(z)` as rule R101 writes it. -/
def usableBy (s : State) (z : CopNum) : Prop :=
  s.cfg.present z = true ∧
    (s.cfg.trapModel = .mips1 →
      s.status.getLsbD (28 + z.toNat) = true ∨ (z = 0 ∧ s.status.getLsbD 1 = false))

/-- Entry `i` of the translation buffer matches an address in the current address space (rule R63). -/
def tlbHit (s : State) (va : Word) (i : Nat) (e : TlbEntry) : Prop :=
  s.tlb[i]? = some e ∧ e.hi.extractLsb' 12 20 = va.extractLsb' 12 20 ∧
    (e.lo.getLsbD 8 = true ∨ e.hi.extractLsb' 6 6 = s.entryHi.extractLsb' 6 6)

/-! ## Where a step starts and ends -/

/-- The state runs, takes no interrupt, and fetches the word `w`: what the next step executes is `w`. -/
def State.ready (s : State) (w : Word) : Prop :=
  s.outcome = .running ∧ s.interruptTaken = false ∧ s.fetch = .ok w

/-- A step is safe: it answers a next state, neither a fault of the model nor a refusal. -/
def safeStep (s : State) : Prop := ∃ t, step s = .next t

/-- Every one of the next `n` steps is safe. -/
def safeRun : Nat → State → Prop
  | 0, _ => True
  | n + 1, s => ∃ t, step s = .next t ∧ safeRun n t

/-- The values common to a launch and a reset (rule R45). -/
structure State.isFresh (s : State) : Prop where
  zero : regGet s.gpr 0 = 0
  inDelay : s.cfg.delaySlots = true → s.inDelay = false
  npc : s.cfg.delaySlots = true → s.npc = s.pc + 4
  loadPending : s.loadPending = .none
  fccFresh : s.fccFresh = false
  hiloAge : s.hiloAge = 2
  dirty : s.dirty = []
  outcome : s.outcome = .running

/-- A launch state of the `fault` model at `entry` (rule R421); everything it does not name is "any". -/
structure State.isLaunch (s : State) (entry : Word) : Prop where
  fresh : s.isFresh
  trapModel : s.cfg.trapModel = .fault
  pc : s.pc = entry
  aligned : entry.toNat % 4 = 0
  rm : s.rm = 0

/-- A reset state of the `mips1` model (rule R420); everything it does not name is "any". -/
structure State.isReset (s : State) : Prop where
  fresh : s.isFresh
  trapModel : s.cfg.trapModel = .mips1
  pc : s.pc = 0xBFC00000
  bev : s.status.getLsbD 22 = true
  ts : s.status.getLsbD 21 = false
  swc : s.status.getLsbD 17 = false
  kuc : s.status.getLsbD 1 = false
  iec : s.status.getLsbD 0 = false
  random : s.random = 63

/-! ## The invariant -/

/-- The bits of a word outside a mask are zero. -/
def within (mask w : Word) : Prop := w &&& ~~~mask = 0

/-- The machine's invariant: register 0 holds 0; memory and `dirty` are in canonical form; the bits of the
coprocessor-0 registers and of the translation entries that rules R37, R38, R40 say read 0 are 0; Random is
in 8 to 63; the buffer has at most 64 entries; the pieces of state tied to a parameter that is off stand at
their launch values (rule R42); a machine with handlers never stops (rule R380). -/
structure State.Inv (s : State) : Prop where
  zero : regGet s.gpr 0 = 0
  mem : Memory.wf s.mem
  dirty : addrWf s.dirty
  status : within statusMask s.status
  cause : within causeMask s.cause
  index : within indexMask s.index
  entryLo : within entryLoMask s.entryLo
  entryHi : within entryHiMask s.entryHi
  context : within contextMask s.context
  tlb : ∀ e ∈ s.tlb, within entryHiMask e.hi ∧ within entryLoMask e.lo
  tlbSize : s.tlb.length ≤ 64
  random : 8 ≤ s.random.toNat
  hiloAge : s.hiloAge ≤ 2
  running : s.cfg.trapModel = .mips1 → s.outcome = .running
  noSlots : s.cfg.delaySlots = false → s.inDelay = false
  noLoadDelay : s.cfg.loadDelay = false → s.loadPending = .none ∧ s.fccFresh = false
  noHiLoHazard : s.cfg.hiloHazard = false → s.hiloAge = 2
  noDirty : s.cfg.fetchSeesStores = true → s.dirty = []

end Sys2Proof.Machine
end

