-- ==== Sys2Proof/Certificates/Slice0/Obligations.lean ====
section
/-! DEFINITION. The statements for the provers, in the order of OBLIGATIONS.json. A statement about an
instruction says that `exec` answers a next state, what it holds, and, by `After` and `Frame` (Safety.lean),
that nothing else has changed. -/

open Sys2Proof Sys2Proof.Machine

/-! ## Encoding and decoding -/

/-- The decoder reads every instruction, with every operand, back from the word the encoder writes (rules
R82, R84, R86 to R92, R99). -/
def Obligations.DecodeOfEncode : Prop :=
  ∀ (c : Config) (i : Instr), Config.fmtWFree c.fmtW → decode c (encode c.fmtW i) = .instr i

/-- A word that decodes to an instruction, no should-be-zero bit set, is the word the encoder writes for it;
only `sll`, `srl` and `sra` leave bits, 25:21, unread (rules R82, R84, R99). -/
def Obligations.EncodeOfDecode : Prop :=
  ∀ (c : Config) (w : Word) (i : Instr), c.sbzPolicy = .refuse → decode c w = .instr i →
    encode c.fmtW i = w ∨
      ((∃ rd rt sh, i = .sll rd rt sh ∨ i = .srl rd rt sh ∨ i = .sra rd rt sh) ∧
        encode c.fmtW i = w &&& 0xFC1FFFFF)

/-- The decoder finds no instruction exactly in the cells rule R100 lists, and executing such a word raises
`ReservedInstruction`, unless its coprocessor's test comes first (rules R100, R101). -/
def Obligations.ReservedEncodings : Prop :=
  (∀ (c : Config) (w : Word), 17 < c.fmtW.toNat →
    ((∃ z, decode c w = .reserved z) ↔ unassigned c.fmtW.toNat w)) ∧
  (∀ (s : State) (w : Word), 17 < s.cfg.fmtW.toNat → unassigned s.cfg.fmtW.toNat w → s.ready w →
    (∀ z : CopNum, (opOf w).toNat = 16 + z.toNat → s.gate z = none) →
    step s = mapNext State.sampleInputs (s.raise .reservedInstruction))

/-- Words decode to the instructions the spec's tables give them for, one for every row, each operand field at a
value of its own; and ten words the spec prints (rules R86, R87, R88, R89, R90, R91, R92). -/
def Obligations.DecodeWords : Prop :=
  -- the op(31:26) table, R86
  (∀ p ∈ ([
    (0x22AA9234, .addi 10 21 0x9234), (0x26AA9234, .addiu 10 21 0x9234), (0x32AA9234, .andi 10 21 0x9234),
    (0x36AA9234, .ori 10 21 0x9234), (0x3AAA9234, .xori 10 21 0x9234), (0x3C0A9234, .lui 10 0x9234),
    (0x2AAA9234, .slti 10 21 0x9234), (0x2EAA9234, .sltiu 10 21 0x9234), (0x12AA9234, .beq 21 10 0x9234),
    (0x16AA9234, .bne 21 10 0x9234), (0x1AA09234, .blez 21 0x9234), (0x1EA09234, .bgtz 21 0x9234),
    (0x0A345678, .j 0x2345678), (0x0E345678, .jal 0x2345678), (0x82AA9234, .lb 10 21 0x9234),
    (0x92AA9234, .lbu 10 21 0x9234), (0x86AA9234, .lh 10 21 0x9234), (0x96AA9234, .lhu 10 21 0x9234),
    (0x8EAA9234, .lw 10 21 0x9234), (0x8AAA9234, .lwl 10 21 0x9234), (0x9AAA9234, .lwr 10 21 0x9234),
    (0xA2AA9234, .sb 10 21 0x9234), (0xA6AA9234, .sh 10 21 0x9234), (0xAEAA9234, .sw 10 21 0x9234),
    (0xAAAA9234, .swl 10 21 0x9234), (0xBAAA9234, .swr 10 21 0x9234), (0xC2AA9234, .lwc0 10 21 0x9234),
    (0xE2AA9234, .swc0 10 21 0x9234), (0xC6AA9234, .lwc1 10 21 0x9234), (0xE6AA9234, .swc1 10 21 0x9234),
    (0xCAAA9234, .lwc2 10 21 0x9234), (0xEAAA9234, .swc2 10 21 0x9234), (0xCEAA9234, .lwc3 10 21 0x9234),
    (0xEEAA9234, .swc3 10 21 0x9234)] : List (Word × Instr)),
    decode Config.atReset p.1 = .instr p.2) ∧
  -- op = 0, R87
  (∀ p ∈ ([
    (0x02AA3820, .add 7 21 10), (0x02AA3821, .addu 7 21 10), (0x02AA3824, .and 7 21 10),
    (0x02AA3827, .nor 7 21 10), (0x02AA3825, .or 7 21 10), (0x02AA3822, .sub 7 21 10),
    (0x02AA3823, .subu 7 21 10), (0x02AA3826, .xor 7 21 10), (0x02AA382A, .slt 7 21 10),
    (0x02AA382B, .sltu 7 21 10), (0x02AA3804, .sllv 7 10 21), (0x02AA3807, .srav 7 10 21),
    (0x02AA3806, .srlv 7 10 21), (0x000A3CC0, .sll 7 10 19), (0x000A3CC3, .sra 7 10 19),
    (0x000A3CC2, .srl 7 10 19), (0x02AA001A, .div 21 10), (0x02AA001B, .divu 21 10), (0x02AA0018, .mult 21 10),
    (0x02AA0019, .multu 21 10), (0x02A00008, .jr 21), (0x02A03809, .jalr 21 7), (0x02A00011, .mthi 21),
    (0x02A00013, .mtlo 21), (0x00003810, .mfhi 7), (0x00003812, .mflo 7), (0x02AF378C, .syscall 0xABCDE),
    (0x02AF378D, .brk 0xABCDE)] : List (Word × Instr)),
    decode Config.atReset p.1 = .instr p.2) ∧
  -- op = 1, R88
  (∀ p ∈ ([
    (0x06A09234, .bltz 21 0x9234), (0x06A19234, .bgez 21 0x9234), (0x06B09234, .bltzal 21 0x9234),
    (0x06B19234, .bgezal 21 0x9234)] : List (Word × Instr)),
    decode Config.atReset p.1 = .instr p.2) ∧
  -- op = 16 to 19, R89 and R90
  (∀ p ∈ ([
    (0x400A3800, .mfc0 10 7), (0x404A3800, .cfc0 10 7), (0x408A3800, .mtc0 10 7), (0x40CA3800, .ctc0 10 7),
    (0x41009234, .bc0f 0x9234), (0x41019234, .bc0t 0x9234), (0x440A3800, .mfc1 10 7), (0x444A3800, .cfc1 10 7),
    (0x448A3800, .mtc1 10 7), (0x44CA3800, .ctc1 10 7), (0x45009234, .bc1f 0x9234), (0x45019234, .bc1t 0x9234),
    (0x480A3800, .mfc2 10 7), (0x484A3800, .cfc2 10 7), (0x488A3800, .mtc2 10 7), (0x48CA3800, .ctc2 10 7),
    (0x49009234, .bc2f 0x9234), (0x49019234, .bc2t 0x9234), (0x4C0A3800, .mfc3 10 7), (0x4C4A3800, .cfc3 10 7),
    (0x4C8A3800, .mtc3 10 7), (0x4CCA3800, .ctc3 10 7), (0x4D009234, .bc3f 0x9234), (0x4D019234, .bc3t 0x9234),
    (0x4BA5B3C7, .cop2 0x1A5B3C7), (0x4FA5B3C7, .cop3 0x1A5B3C7)] : List (Word × Instr)),
    decode Config.atReset p.1 = .instr p.2) ∧
  -- coprocessor 0, R91
  (∀ p ∈ ([
    (0x42000001, .tlbr), (0x42000002, .tlbwi), (0x42000006, .tlbwr), (0x42000008, .tlbp),
    (0x42000010, .rfe)] : List (Word × Instr)),
    decode Config.atReset p.1 = .instr p.2) ∧
  -- floating point, R92
  (∀ p ∈ ([
    (0x4620A185, .absD 6 20), (0x4600A185, .absS 6 20), (0x462AA180, .addD 6 20 10),
    (0x460AA180, .addS 6 20 10), (0x4600A1A1, .cvtDS 6 20), (0x4680A1A1, .cvtDW 6 20),
    (0x4620A1A0, .cvtSD 6 20), (0x4680A1A0, .cvtSW 6 20), (0x4620A1A4, .cvtWD 6 20), (0x4600A1A4, .cvtWS 6 20),
    (0x462AA183, .divD 6 20 10), (0x460AA183, .divS 6 20 10), (0x4620A186, .movD 6 20),
    (0x4600A186, .movS 6 20), (0x462AA182, .mulD 6 20 10), (0x460AA182, .mulS 6 20 10),
    (0x4620A187, .negD 6 20), (0x4600A187, .negS 6 20), (0x462AA181, .subD 6 20 10),
    (0x460AA181, .subS 6 20 10), (0x460AA030, .cFS 20 10), (0x462AA030, .cFD 20 10), (0x460AA031, .cUnS 20 10),
    (0x462AA031, .cUnD 20 10), (0x460AA032, .cEqS 20 10), (0x462AA032, .cEqD 20 10),
    (0x460AA033, .cUeqS 20 10), (0x462AA033, .cUeqD 20 10), (0x460AA034, .cOltS 20 10),
    (0x462AA034, .cOltD 20 10), (0x460AA035, .cUltS 20 10), (0x462AA035, .cUltD 20 10),
    (0x460AA036, .cOleS 20 10), (0x462AA036, .cOleD 20 10), (0x460AA037, .cUleS 20 10),
    (0x462AA037, .cUleD 20 10), (0x460AA038, .cSfS 20 10), (0x462AA038, .cSfD 20 10),
    (0x460AA039, .cNgleS 20 10), (0x462AA039, .cNgleD 20 10), (0x460AA03A, .cSeqS 20 10),
    (0x462AA03A, .cSeqD 20 10), (0x460AA03B, .cNglS 20 10), (0x462AA03B, .cNglD 20 10),
    (0x460AA03C, .cLtS 20 10), (0x462AA03C, .cLtD 20 10), (0x460AA03D, .cNgeS 20 10),
    (0x462AA03D, .cNgeD 20 10), (0x460AA03E, .cLeS 20 10), (0x462AA03E, .cLeD 20 10),
    (0x460AA03F, .cNgtS 20 10), (0x462AA03F, .cNgtD 20 10)] : List (Word × Instr)),
    decode Config.atReset p.1 = .instr p.2) ∧
  decode Config.atReset 0x00221820 = .instr (.add 3 1 2) ∧
  decode Config.atReset 0x2022FFFF = .instr (.addi 2 1 0xFFFF) ∧
  decode Config.atReset 0x0040F809 = .instr (.jalr 2 31) ∧
  decode Config.atReset 0x8C220004 = .instr (.lw 2 1 4) ∧
  decode Config.atReset 0x44822000 = .instr (.mtc1 2 4) ∧
  decode Config.atReset 0x46262080 = .instr (.addD 2 4 6) ∧
  decode Config.atReset 0x468020A1 = .instr (.cvtDW 2 4) ∧
  decode Config.atReset 0x4626203C = .instr (.cLtD 4 6) ∧
  decode Config.atReset 0x42000010 = .instr .rfe ∧
  decode Config.atReset 0x4A000000 = .instr (.cop2 0)

/-- A step of a running state that takes no interrupt and fetches the word of `i` is `exec i`, with the
inputs of the next step sampled after it, unless a hazard check faults first; the sampling changes nothing
but the inputs. The sampling is the model's own: notes/assumptions/7.md and 8.md (rules R27, R44, R390). -/
def Obligations.StepRunsDecoded : Prop :=
  (∀ (s : State) (w : Word) (i : Instr), s.ready w → decode s.cfg w = .instr i → s.hazard i = none →
    step s = mapNext State.sampleInputs (exec i s)) ∧
  (∀ (s : State) (w : Word) (i : Instr) (r : Fault), s.ready w → decode s.cfg w = .instr i →
    s.decodeStop i = none → s.hazard i = some r → step s = .fault r) ∧
  ∀ s : State, Frame s s.sampleInputs [.intPins, .random, .draws] ∧ s.sampleInputs.pc = s.pc ∧
    s.sampleInputs.npc = s.npc ∧ s.sampleInputs.inDelay = s.inDelay ∧
    s.sampleInputs.loadPending = s.loadPending ∧ s.sampleInputs.fccFresh = s.fccFresh ∧
    s.sampleInputs.hiloAge = s.hiloAge

/-- The should-be-zero bits of each instruction, by the table of rule R99. Under `ignore` a word decodes to the
instruction of the word without those bits, none is turned away, and the same word under `refuse` decodes to the
instruction only if they are all 0; under `refuse` a word with one set is refused, after the coprocessor test
(rules R99, R383). -/
def Obligations.ShouldBeZero : Prop :=
  (∀ (i : Instr) (k : Nat), k < 32 → (i.sbzMask.getLsbD k = true ↔ ∃ (a b c : Reg) (imm : BitVec 16),
      (6 ≤ k ∧ k ≤ 10 ∧ i ∈
        [Instr.add a b c, .addu a b c, .sub a b c, .subu a b c, .and a b c, .or a b c, .xor a b c, .nor a b c,
        .slt a b c, .sltu a b c, .sllv a b c, .srlv a b c, .srav a b c, .cFS a b, .cFD a b, .cUnS a b,
        .cUnD a b, .cEqS a b, .cEqD a b, .cUeqS a b, .cUeqD a b, .cOltS a b, .cOltD a b, .cUltS a b,
        .cUltD a b, .cOleS a b, .cOleD a b, .cUleS a b, .cUleD a b, .cSfS a b, .cSfD a b, .cNgleS a b,
        .cNgleD a b, .cSeqS a b, .cSeqD a b, .cNglS a b, .cNglD a b, .cLtS a b, .cLtD a b, .cNgeS a b,
        .cNgeD a b, .cLeS a b, .cLeD a b, .cNgtS a b, .cNgtD a b]) ∨
      (6 ≤ k ∧ k ≤ 15 ∧ i ∈ [Instr.mult a b, .multu a b, .div a b, .divu a b]) ∨
      (6 ≤ k ∧ k ≤ 20 ∧ i ∈ [Instr.jr a, .mthi a, .mtlo a]) ∨
      ((16 ≤ k ∧ k ≤ 25 ∨ 6 ≤ k ∧ k ≤ 10) ∧ i ∈ [Instr.mfhi a, .mflo a]) ∨
      ((16 ≤ k ∧ k ≤ 20 ∨ 6 ≤ k ∧ k ≤ 10) ∧ i ∈ [Instr.jalr a b]) ∨
      (21 ≤ k ∧ k ≤ 25 ∧ i ∈ [Instr.lui a imm]) ∨
      (16 ≤ k ∧ k ≤ 20 ∧ i ∈
        [Instr.blez a imm, .bgtz a imm, .absS a b, .absD a b, .movS a b, .movD a b, .negS a b, .negD a b,
        .cvtSD a b, .cvtSW a b, .cvtDS a b, .cvtDW a b, .cvtWS a b, .cvtWD a b]) ∨
      (k ≤ 10 ∧ i ∈ [Instr.mfc0 a b, .cfc0 a b, .mtc0 a b, .ctc0 a b, .mfc1 a b, .cfc1 a b, .mtc1 a b, .ctc1 a b,
        .mfc2 a b, .cfc2 a b, .mtc2 a b, .ctc2 a b, .mfc3 a b, .cfc3 a b, .mtc3 a b, .ctc3 a b]) ∨
      (17 ≤ k ∧ k ≤ 20 ∧ i ∈
        [Instr.bc0f imm, .bc0t imm, .bc1f imm, .bc1t imm, .bc2f imm, .bc2t imm, .bc3f imm, .bc3t imm]) ∨
      (5 ≤ k ∧ k ≤ 20 ∧ i ∈ [Instr.tlbr, .tlbwi, .tlbwr, .tlbp, .rfe]))) ∧
  (∀ (c : Config) (w : Word) (i : Instr), c.sbzPolicy = .ignore → decodeRow c.fmtW w = some i →
    decode c w = .instr i) ∧
  (∀ (c : Config) (w : Word) (i : Instr), c.sbzPolicy = .ignore → decode c w ≠ .nonZeroSbz i ∧
    (decode c w = .instr i → decode c (w &&& ~~~i.sbzMask) = .instr i ∧
      decode { c with sbzPolicy := .refuse } w =
        if w &&& i.sbzMask = 0 then .instr i else .nonZeroSbz i)) ∧
  (∀ (s : State) (w : Word) (i : Instr), s.cfg.sbzPolicy = .refuse → decodeRow s.cfg.fmtW w = some i →
    w &&& i.sbzMask ≠ 0 → s.ready w → s.decodeStop i = none → step s = .refused .nonZeroSbz)

/-- The coprocessor test comes before anything else a word of coprocessor z's space can report, and before it
come the two refusals (rules R101, R355). -/
def Obligations.CoprocessorTest : Prop :=
  ∀ (s : State) (w : Word) (z : CopNum), s.ready w →
    ((opOf w).toNat = 16 ∧ s.cfg.trapModel = .fault → step s = .refused .cop0InFaultModel) ∧
    ((opOf w).toNat = 0x30 ∨ (opOf w).toNat = 0x38 → step s = .refused .cop0LoadStore) ∧
    ((opOf w).toNat = 16 + z.toNat ∨
        (z ≠ 0 ∧ ((opOf w).toNat = 0x30 + z.toNat ∨ (opOf w).toNat = 0x38 + z.toNat)) →
      ¬(z = 0 ∧ s.cfg.trapModel = .fault) → ¬usableBy s z →
      step s = mapNext State.sampleInputs (s.raise (.coprocessorUnusable z)))

/-! ## Registers -/

/-- Register 0 reads 0 and a write to it is discarded (rule R21). -/
def Obligations.RegisterZero : Prop :=
  ∀ (s : State) (r q : Reg) (v : Word), s.x 0 = 0 ∧ s.setX 0 v = s ∧
    (r ≠ 0 → (s.setX r v).x r = v) ∧ (q ≠ r → (s.setX r v).x q = s.x q)

/-- A double lies in an even/odd pair, the even register holding the low half; an instruction that names an
odd register for a double is refused (rules R31, R292). -/
def Obligations.DoublePairs : Prop :=
  (∀ (s : State) (r q : Reg) (v : DWord), s.d r = s.f (r + 1) ++ s.f r ∧
    (s.setD r v).f r = v.extractLsb' 0 32 ∧ (s.setD r v).f (r + 1) = v.extractLsb' 32 32 ∧
    (s.setD r v).d r = v ∧ (q ≠ r → q ≠ r + 1 → (s.setD r v).f q = s.f q)) ∧
  ∀ (s : State) (i : Instr) (r : Reg), s.gate 1 = none → r ∈ i.doubleRegs → r.toNat % 2 = 1 →
    exec i s = .refused .oddDoubleRegister

/-! ## Arithmetic and logic -/

/-- Signed overflow, by the integers and by the sign bits; `add`, `addi` and `sub` raise `Overflow` on it and
leave every general register unchanged; `addu`, `addiu` and `subu` never raise it; without overflow the two
kinds do the same (rule R120). -/
def Obligations.OverflowDefinition : Prop :=
  (∀ a b : Word,
    ((a.toInt + b.toInt < -2147483648 ∨ 2147483647 < a.toInt + b.toInt) ↔
      (a.msb = b.msb ∧ (a + b).msb ≠ a.msb)) ∧
    ((a.toInt - b.toInt < -2147483648 ∨ 2147483647 < a.toInt - b.toInt) ↔
      (a.msb ≠ b.msb ∧ (a - b).msb ≠ a.msb))) ∧
  ∀ (s : State) (rd rs rt : Reg) (imm : BitVec 16),
    (if (s.x rs).msb = (s.x rt).msb ∧ (s.x rs + s.x rt).msb ≠ (s.x rs).msb then
      exec (.add rd rs rt) s = s.raise .overflow
    else exec (.add rd rs rt) s = exec (.addu rd rs rt) s) ∧
    (if (s.x rs).msb = (imm.signExtend 32).msb ∧ (s.x rs + imm.signExtend 32).msb ≠ (s.x rs).msb then
      exec (.addi rt rs imm) s = s.raise .overflow
    else exec (.addi rt rs imm) s = exec (.addiu rt rs imm) s) ∧
    (if (s.x rs).msb ≠ (s.x rt).msb ∧ (s.x rs - s.x rt).msb ≠ (s.x rs).msb then
      exec (.sub rd rs rt) s = s.raise .overflow
    else exec (.sub rd rs rt) s = exec (.subu rd rs rt) s) ∧
    (∀ (t : State) (r : Reg), s.raise .overflow = .next t → t.x r = s.x r) ∧
    (∃ t, exec (.addu rd rs rt) s = .next t ∧ t.outcome = s.outcome ∧ t.holds rd (s.x rs + s.x rt)) ∧
    (∃ t, exec (.addiu rt rs imm) s = .next t ∧ t.outcome = s.outcome ∧
      t.holds rt (s.x rs + imm.signExtend 32)) ∧
    (∃ t, exec (.subu rd rs rt) s = .next t ∧ t.outcome = s.outcome ∧ t.holds rd (s.x rs - s.x rt))

/-- `add`, `addi`, `sub`: their words; without overflow they complete with the sum or difference of the integers
and change nothing else, with overflow they raise `Overflow` (rules R123, R125, R154). -/
def Obligations.TrappingArithmetic : Prop :=
  ∀ (s : State) (f : BitVec 5) (rd rs rt : Reg) (imm : BitVec 16),
    encode f (.add rd rs rt) = 0x00#6 ++ rs ++ rt ++ rd ++ 0x00#5 ++ 0x20#6 ∧
    encode f (.addi rt rs imm) = 0x08#6 ++ rs ++ rt ++ imm ∧
    encode f (.sub rd rs rt) = 0x00#6 ++ rs ++ rt ++ rd ++ 0x00#5 ++ 0x22#6 ∧
    (-2147483648 ≤ (s.x rs).toInt + (s.x rt).toInt → (s.x rs).toInt + (s.x rt).toInt ≤ 2147483647 →
      ∃ t, exec (.add rd rs rt) s = .next t ∧ After s t {} ∧ Frame s t [.gpr rd] ∧
        (rd ≠ 0 → (t.x rd).toInt = (s.x rs).toInt + (s.x rt).toInt)) ∧
    ((s.x rs).toInt + (s.x rt).toInt < -2147483648 ∨ 2147483647 < (s.x rs).toInt + (s.x rt).toInt →
      exec (.add rd rs rt) s = s.raise .overflow) ∧
    (-2147483648 ≤ (s.x rs).toInt + imm.toInt → (s.x rs).toInt + imm.toInt ≤ 2147483647 →
      ∃ t, exec (.addi rt rs imm) s = .next t ∧ After s t {} ∧ Frame s t [.gpr rt] ∧
        (rt ≠ 0 → (t.x rt).toInt = (s.x rs).toInt + imm.toInt)) ∧
    ((s.x rs).toInt + imm.toInt < -2147483648 ∨ 2147483647 < (s.x rs).toInt + imm.toInt →
      exec (.addi rt rs imm) s = s.raise .overflow) ∧
    (-2147483648 ≤ (s.x rs).toInt - (s.x rt).toInt → (s.x rs).toInt - (s.x rt).toInt ≤ 2147483647 →
      ∃ t, exec (.sub rd rs rt) s = .next t ∧ After s t {} ∧ Frame s t [.gpr rd] ∧
        (rd ≠ 0 → (t.x rd).toInt = (s.x rs).toInt - (s.x rt).toInt)) ∧
    ((s.x rs).toInt - (s.x rt).toInt < -2147483648 ∨ 2147483647 < (s.x rs).toInt - (s.x rt).toInt →
      exec (.sub rd rs rt) s = s.raise .overflow)

/-- `addu`, `addiu`, `subu`: their words; they complete with the result modulo 2^32 and change nothing else (rules
R124, R126, R155). -/
def Obligations.WrappingArithmetic : Prop :=
  ∀ (s : State) (f : BitVec 5) (rd rs rt : Reg) (imm : BitVec 16),
    encode f (.addu rd rs rt) = 0x00#6 ++ rs ++ rt ++ rd ++ 0x00#5 ++ 0x21#6 ∧
    encode f (.addiu rt rs imm) = 0x09#6 ++ rs ++ rt ++ imm ∧
    encode f (.subu rd rs rt) = 0x00#6 ++ rs ++ rt ++ rd ++ 0x00#5 ++ 0x23#6 ∧
    (∃ t, exec (.addu rd rs rt) s = .next t ∧ After s t {} ∧ Frame s t [.gpr rd] ∧
      t.holds rd (BitVec.ofNat 32 ((s.x rs).toNat + (s.x rt).toNat))) ∧
    (∃ t, exec (.addiu rt rs imm) s = .next t ∧ After s t {} ∧ Frame s t [.gpr rt] ∧
      t.holds rt (BitVec.ofInt 32 ((s.x rs).toInt + imm.toInt))) ∧
    (∃ t, exec (.subu rd rs rt) s = .next t ∧ After s t {} ∧ Frame s t [.gpr rd] ∧
      t.holds rd (BitVec.ofInt 32 ((s.x rs).toInt - (s.x rt).toInt)))

/-- The bitwise instructions: their words, and the result bit by bit, immediates zero-extended (rules R127, R128,
R140, R142, R143, R156, R157). -/
def Obligations.BitwiseLogic : Prop :=
  ∀ (s : State) (f : BitVec 5) (rd rs rt : Reg) (imm : BitVec 16),
    encode f (.and rd rs rt) = 0x00#6 ++ rs ++ rt ++ rd ++ 0x00#5 ++ 0x24#6 ∧
    encode f (.or rd rs rt) = 0x00#6 ++ rs ++ rt ++ rd ++ 0x00#5 ++ 0x25#6 ∧
    encode f (.xor rd rs rt) = 0x00#6 ++ rs ++ rt ++ rd ++ 0x00#5 ++ 0x26#6 ∧
    encode f (.nor rd rs rt) = 0x00#6 ++ rs ++ rt ++ rd ++ 0x00#5 ++ 0x27#6 ∧
    encode f (.andi rt rs imm) = 0x0C#6 ++ rs ++ rt ++ imm ∧
    encode f (.ori rt rs imm) = 0x0D#6 ++ rs ++ rt ++ imm ∧
    encode f (.xori rt rs imm) = 0x0E#6 ++ rs ++ rt ++ imm ∧
    (∃ t, exec (.and rd rs rt) s = .next t ∧ After s t {} ∧ Frame s t [.gpr rd] ∧ (rd ≠ 0 →
      ∀ k < 32, (t.x rd).getLsbD k = ((s.x rs).getLsbD k && (s.x rt).getLsbD k))) ∧
    (∃ t, exec (.or rd rs rt) s = .next t ∧ After s t {} ∧ Frame s t [.gpr rd] ∧ (rd ≠ 0 →
      ∀ k < 32, (t.x rd).getLsbD k = ((s.x rs).getLsbD k || (s.x rt).getLsbD k))) ∧
    (∃ t, exec (.xor rd rs rt) s = .next t ∧ After s t {} ∧ Frame s t [.gpr rd] ∧ (rd ≠ 0 →
      ∀ k < 32, (t.x rd).getLsbD k = ((s.x rs).getLsbD k != (s.x rt).getLsbD k))) ∧
    (∃ t, exec (.nor rd rs rt) s = .next t ∧ After s t {} ∧ Frame s t [.gpr rd] ∧ (rd ≠ 0 →
      ∀ k < 32, (t.x rd).getLsbD k = !((s.x rs).getLsbD k || (s.x rt).getLsbD k))) ∧
    (∃ t, exec (.andi rt rs imm) s = .next t ∧ After s t {} ∧ Frame s t [.gpr rt] ∧ (rt ≠ 0 →
      ∀ k < 32, (t.x rt).getLsbD k = (k < 16 && (s.x rs).getLsbD k && imm.getLsbD k))) ∧
    (∃ t, exec (.ori rt rs imm) s = .next t ∧ After s t {} ∧ Frame s t [.gpr rt] ∧ (rt ≠ 0 →
      ∀ k < 32, (t.x rt).getLsbD k = ((s.x rs).getLsbD k || (k < 16 && imm.getLsbD k)))) ∧
    (∃ t, exec (.xori rt rs imm) s = .next t ∧ After s t {} ∧ Frame s t [.gpr rt] ∧ (rt ≠ 0 →
      ∀ k < 32, (t.x rt).getLsbD k = ((s.x rs).getLsbD k != (k < 16 && imm.getLsbD k))))

/-- The shifts: a left shift multiplies and drops the carries, a logical right shift divides the unsigned
value, an arithmetic one the signed value, rounding down; a variable distance is the low five bits. `lui` shifts
its immediate left by 16 (rules R146 to R151, R171). -/
def Obligations.Shifts : Prop :=
  ∀ (s : State) (rd rs rt shamt : Reg) (imm : BitVec 16),
    (∃ t, exec (.lui rt imm) s = .next t ∧ After s t {} ∧ Frame s t [.gpr rt] ∧
      t.holds rt (BitVec.ofNat 32 (imm.toNat * 65536))) ∧
    (∃ t, exec (.sll rd rt shamt) s = .next t ∧ After s t {} ∧ Frame s t [.gpr rd] ∧
      t.holds rd (BitVec.ofNat 32 ((s.x rt).toNat * 2 ^ shamt.toNat))) ∧
    (∃ t, exec (.srl rd rt shamt) s = .next t ∧ After s t {} ∧ Frame s t [.gpr rd] ∧
      t.holds rd (BitVec.ofNat 32 ((s.x rt).toNat / 2 ^ shamt.toNat))) ∧
    (∃ t, exec (.sra rd rt shamt) s = .next t ∧ After s t {} ∧ Frame s t [.gpr rd] ∧
      t.holds rd (BitVec.ofInt 32 ((s.x rt).toInt.fdiv (2 ^ shamt.toNat)))) ∧
    (∃ t, exec (.sllv rd rt rs) s = .next t ∧ After s t {} ∧ Frame s t [.gpr rd] ∧
      t.holds rd (BitVec.ofNat 32 ((s.x rt).toNat * 2 ^ ((s.x rs).toNat % 32)))) ∧
    (∃ t, exec (.srlv rd rt rs) s = .next t ∧ After s t {} ∧ Frame s t [.gpr rd] ∧
      t.holds rd (BitVec.ofNat 32 ((s.x rt).toNat / 2 ^ ((s.x rs).toNat % 32)))) ∧
    (∃ t, exec (.srav rd rt rs) s = .next t ∧ After s t {} ∧ Frame s t [.gpr rd] ∧
      t.holds rd (BitVec.ofInt 32 ((s.x rt).toInt.fdiv (2 ^ ((s.x rs).toNat % 32)))))

/-- The comparisons: their words; they write 1 or 0; both immediates are sign-extended, and `sltiu` then compares
unsigned (rules R175 to R178). -/
def Obligations.SetLessThan : Prop :=
  ∀ (s : State) (f : BitVec 5) (rd rs rt : Reg) (imm : BitVec 16),
    encode f (.slt rd rs rt) = 0x00#6 ++ rs ++ rt ++ rd ++ 0x00#5 ++ 0x2A#6 ∧
    encode f (.sltu rd rs rt) = 0x00#6 ++ rs ++ rt ++ rd ++ 0x00#5 ++ 0x2B#6 ∧
    encode f (.slti rt rs imm) = 0x0A#6 ++ rs ++ rt ++ imm ∧
    encode f (.sltiu rt rs imm) = 0x0B#6 ++ rs ++ rt ++ imm ∧
    (∃ t, exec (.slt rd rs rt) s = .next t ∧ After s t {} ∧ Frame s t [.gpr rd] ∧
      t.holds rd (if (s.x rs).toInt < (s.x rt).toInt then 1 else 0)) ∧
    (∃ t, exec (.sltu rd rs rt) s = .next t ∧ After s t {} ∧ Frame s t [.gpr rd] ∧
      t.holds rd (if (s.x rs).toNat < (s.x rt).toNat then 1 else 0)) ∧
    (∃ t, exec (.slti rt rs imm) s = .next t ∧ After s t {} ∧ Frame s t [.gpr rt] ∧
      t.holds rt (if (s.x rs).toInt < imm.toInt then 1 else 0)) ∧
    (∃ t, exec (.sltiu rt rs imm) s = .next t ∧ After s t {} ∧ Frame s t [.gpr rt] ∧
      t.holds rt (if (s.x rs).toNat < (imm.signExtend 32).toNat then 1 else 0))

/-- `mult` and `multu`: their words; they leave the exact 64-bit product in `hi` and `lo` (rules R133, R134). -/
def Obligations.Multiply : Prop :=
  ∀ (s : State) (f : BitVec 5) (rs rt : Reg),
    encode f (.mult rs rt) = 0x00#6 ++ rs ++ rt ++ 0x000#10 ++ 0x18#6 ∧
    encode f (.multu rs rt) = 0x00#6 ++ rs ++ rt ++ 0x000#10 ++ 0x19#6 ∧
    (∃ t, exec (.mult rs rt) s = .next t ∧ After s t {} ∧ Frame s t [.hi, .lo] ∧
      t.hi.toInt * 4294967296 + t.lo.toNat = (s.x rs).toInt * (s.x rt).toInt) ∧
    (∃ t, exec (.multu rs rt) s = .next t ∧ After s t {} ∧ Frame s t [.hi, .lo] ∧
      t.hi.toNat * 4294967296 + t.lo.toNat = (s.x rs).toNat * (s.x rt).toNat)

/-- `div` and `divu` by a non-zero divisor: dividend = quotient * divisor + remainder, the remainder smaller
than the divisor and signed by `SDIV_CONVENTION`; -2^31 / -1 leaves 0x80000000 and 0. By zero they complete,
`hi` and `lo` being draws (rules R121, R129, R130). -/
def Obligations.Divide : Prop :=
  ∀ (s : State) (rs rt : Reg),
    (s.x rt = 0 →
      (∃ t, exec (.div rs rt) s = .next t ∧ After s t {} ∧ Frame s t [.hi, .lo, .draws]) ∧
      (∃ t, exec (.divu rs rt) s = .next t ∧ After s t {} ∧ Frame s t [.hi, .lo, .draws])) ∧
    (s.x rt ≠ 0 → ∃ t, exec (.div rs rt) s = .next t ∧ After s t {} ∧ Frame s t [.hi, .lo] ∧
      if (s.x rs).toInt = -2147483648 ∧ (s.x rt).toInt = -1 then t.lo = 0x80000000 ∧ t.hi = 0
      else
        (s.x rs).toInt = t.lo.toInt * (s.x rt).toInt + t.hi.toInt ∧
        |t.hi.toInt| < |(s.x rt).toInt| ∧
        (s.cfg.sdiv = .truncate → t.hi = 0 ∨ (t.hi.toInt < 0 ↔ (s.x rs).toInt < 0)) ∧
        (s.cfg.sdiv = .floor → t.hi = 0 ∨ (t.hi.toInt < 0 ↔ (s.x rt).toInt < 0))) ∧
    (s.x rt ≠ 0 → ∃ t, exec (.divu rs rt) s = .next t ∧ After s t {} ∧ Frame s t [.hi, .lo] ∧
      (s.x rs).toNat = t.lo.toNat * (s.x rt).toNat + t.hi.toNat ∧ t.hi.toNat < (s.x rt).toNat)

/-- The moves to and from `hi` and `lo` (rules R272 to R275). -/
def Obligations.MoveHiLo : Prop :=
  ∀ (s : State) (r : Reg),
    (∃ t, exec (.mfhi r) s = .next t ∧ After s t { readsHiLo := true } ∧ Frame s t [.gpr r] ∧
      t.holds r s.hi) ∧
    (∃ t, exec (.mflo r) s = .next t ∧ After s t { readsHiLo := true } ∧ Frame s t [.gpr r] ∧
      t.holds r s.lo) ∧
    (∃ t, exec (.mthi r) s = .next t ∧ After s t {} ∧ Frame s t [.hi] ∧ t.hi = s.x r) ∧
    (∃ t, exec (.mtlo r) s = .next t ∧ After s t {} ∧ Frame s t [.lo] ∧ t.lo = s.x r)

/-! ## Branches and jumps -/

/-- The branch target, its consequences, and that a taken branch goes there under both values of
`DELAY_SLOTS` (rule R190). -/
def Obligations.BranchTarget : Prop :=
  (∀ (pc : Word) (offset : BitVec 16),
    branchTarget pc offset = BitVec.ofInt 32 (pc.toNat + 4 + 4 * offset.toInt) ∧
    branchTarget pc 0 = pc + 4 ∧ branchTarget pc 0xFFFF = pc ∧
    branchTarget pc 0x7FFF = pc + 4 + 0x1FFFC ∧ branchTarget pc 0x8000 = pc + 4 - 0x20000 ∧
    (pc.toNat % 4 = 0 → (branchTarget pc offset).toNat % 4 = 0)) ∧
  ∀ (s : State) (r : Reg) (offset : BitVec 16), ∃ t, exec (.beq r r offset) s = .next t ∧
    (s.cfg.delaySlots = false → t.pc = branchTarget s.pc offset) ∧
    (s.cfg.delaySlots = true → t.pc = s.npc ∧ t.npc = branchTarget s.pc offset)

/-- The jump target: a word of the 256 MB region that holds the next instruction; `j` and `jal` go there, `jr`
and `jalr` to any address (rule R191). -/
def Obligations.JumpTarget : Prop :=
  (∀ (pc : Word) (target : BitVec 26),
    (jumpTarget pc target).toNat = (pc + 4).toNat / 268435456 * 268435456 + target.toNat * 4 ∧
    (pc.toNat % 268435456 = 0xFFFFFFC →
      (jumpTarget pc target).toNat / 268435456 = (pc.toNat / 268435456 + 1) % 16)) ∧
  ∀ (s : State) (target : BitVec 26) (rs rd : Reg),
    (∃ t, exec (.j target) s = .next t ∧
      (if s.cfg.delaySlots then t.npc else t.pc) = jumpTarget s.pc target) ∧
    (∃ t, exec (.jal target) s = .next t ∧
      (if s.cfg.delaySlots then t.npc else t.pc) = jumpTarget s.pc target) ∧
    (∃ t, exec (.jr rs) s = .next t ∧ (if s.cfg.delaySlots then t.npc else t.pc) = s.x rs) ∧
    (rd ≠ rs → ∃ t, exec (.jalr rs rd) s = .next t ∧
      (if s.cfg.delaySlots then t.npc else t.pc) = s.x rs)

/-- The conditional branches: taken exactly when the condition on the old registers holds (rules R192, R196,
R197, R199, R200, R202, R203). -/
def Obligations.ConditionalBranches : Prop :=
  ∀ (s : State) (rs rt : Reg) (offset : BitVec 16),
    BranchesIf s (.beq rs rt offset) (s.x rs = s.x rt) offset [] ∧
    BranchesIf s (.bne rs rt offset) (s.x rs ≠ s.x rt) offset [] ∧
    BranchesIf s (.blez rs offset) ((s.x rs).msb = true ∨ s.x rs = 0) offset [] ∧
    BranchesIf s (.bgtz rs offset) ((s.x rs).msb = false ∧ s.x rs ≠ 0) offset [] ∧
    BranchesIf s (.bltz rs offset) ((s.x rs).msb = true) offset [] ∧
    BranchesIf s (.bgez rs offset) ((s.x rs).msb = false) offset []

/-- The linking branches write the link whether or not they branch, on the old register; register 31 as `rs`
is refused (rules R192, R198, R201). -/
def Obligations.LinkingBranches : Prop :=
  ∀ (s : State) (rs : Reg) (offset : BitVec 16),
    (rs ≠ 31 →
      BranchesIf s (.bltzal rs offset) ((s.x rs).msb = true) offset [.gpr 31] ∧
      BranchesIf s (.bgezal rs offset) ((s.x rs).msb = false) offset [.gpr 31] ∧
      (∀ t, exec (.bltzal rs offset) s = .next t → t.x 31 = linkValue s) ∧
      (∀ t, exec (.bgezal rs offset) s = .next t → t.x 31 = linkValue s)) ∧
    exec (.bltzal 31 offset) s = .refused .linkRegisterClash ∧
    exec (.bgezal 31 offset) s = .refused .linkRegisterClash

/-- The jumps (rules R214 to R217). -/
def Obligations.Jumps : Prop :=
  ∀ (s : State) (rs rd : Reg) (target : BitVec 26),
    (∃ t, exec (.j target) s = .next t ∧ Frame s t [] ∧
      After s t { branches := true, target := some ((s.pc + 4).extractLsb' 28 4 ++ target ++ 0#2) }) ∧
    (∃ t, exec (.jal target) s = .next t ∧ Frame s t [.gpr 31] ∧ t.x 31 = linkValue s ∧
      After s t { branches := true, target := some ((s.pc + 4).extractLsb' 28 4 ++ target ++ 0#2) }) ∧
    (∃ t, exec (.jr rs) s = .next t ∧ Frame s t [] ∧
      After s t { branches := true, target := some (s.x rs) }) ∧
    (rd ≠ rs → ∃ t, exec (.jalr rs rd) s = .next t ∧ Frame s t [.gpr rd] ∧ t.holds rd (linkValue s) ∧
      After s t { branches := true, target := some (s.x rs) }) ∧
    exec (.jalr rs rs) s = .refused .linkRegisterClash

/-- The branches on a coprocessor's condition: `fcc` for coprocessor 1, an input, one draw, for the others
(rules R35, R194, R195). -/
def Obligations.CoprocessorBranches : Prop :=
  ∀ (s : State) (offset : BitVec 16),
    (s.gate 1 = none →
      BranchesIf s (.bc1t offset) s.fcc offset [] ∧ BranchesIf s (.bc1f offset) (!s.fcc) offset []) ∧
    (s.gate 0 = none → ∃ c : Bool,
      BranchesIf s (.bc0t offset) c offset [.draws] ∧ BranchesIf s (.bc0f offset) (!c) offset [.draws]) ∧
    (s.gate 2 = none → ∃ c : Bool,
      BranchesIf s (.bc2t offset) c offset [.draws] ∧ BranchesIf s (.bc2f offset) (!c) offset [.draws]) ∧
    (s.gate 3 = none → ∃ c : Bool,
      BranchesIf s (.bc3t offset) c offset [.draws] ∧ BranchesIf s (.bc3f offset) (!c) offset [.draws])

/-! ## Memory -/

/-- The checks of one access, in their order: alignment, the user-mode segment check, translation, admission
of every byte; and a fetch's stale-byte check after them. `lwl`, `lwr`, `swl` and `swr` need no alignment, check the
bytes they touch and no other, and work on the aligned word around the physical address. What stops the access of
a load or store is what the instruction reports, in place of any effect: an address error, a TLB exception, a bus
error, or the fault of two matching translations. What stops the fetch of a running machine that takes no interrupt
is what the step reports: `AddressErrorLoad(pc)` for a misaligned `pc`, `BusErrorFetch` for an address not admitted,
the fault `StaleFetch` for a stored byte (rules R54, R55, R56, R60, R62, R64, R67, R231, R232, R373, R376, R383). -/
def Obligations.AccessChecks : Prop :=
  (∀ (va : Word) (k : Access) (refill : Bool),
    addressError k va = (if k = .store then .addressErrorStore va else .addressErrorLoad va) ∧
    tlbMiss k va refill = (if k = .store then .tlbStore va refill else .tlbLoad va refill) ∧
    busError k = if k = .fetch then .busErrorFetch else .busErrorData) ∧
  (∀ (s : State) (va pa : Word) (n : Nat) (k : Access) (e : Stop), n = 1 ∨ n = 2 ∨ n = 4 →
    (va.toNat % n ≠ 0 → s.reach va n k = .error (.exc (addressError k va))) ∧
    (s.cfg.trapModel = .mips1 → s.status.getLsbD 1 = true → 2147483648 ≤ va.toNat →
      s.reach va n k = .error (.exc (addressError k va))) ∧
    (va.toNat % n = 0 → s.physical va k = .error e → s.reach va n k = .error e) ∧
    (va.toNat % n = 0 → s.physical va k = .ok pa →
      s.reach va n k =
        if ∀ i < n, admits s.cfg.memDomain (pa.toNat + i) = true then .ok pa.toNat
        else .error (.exc (busError k)))) ∧
  (∀ (s : State) (left : Bool) (va pa : Word) (k : Access) (e : Stop),
    (s.physical va k = .error e → s.reachPart left va k = .error e) ∧
    (s.physical va k = .ok pa →
      ((∀ i < 4, (if left = s.cfg.bigEndian then va.toNat % 4 ≤ i else i ≤ va.toNat % 4) →
          admits s.cfg.memDomain (pa.toNat / 4 * 4 + i) = true) →
        s.reachPart left va k = .ok (pa.toNat / 4 * 4)) ∧
      (∀ i < 4, (if left = s.cfg.bigEndian then va.toNat % 4 ≤ i else i ≤ va.toNat % 4) →
        admits s.cfg.memDomain (pa.toNat / 4 * 4 + i) = false →
        s.reachPart left va k = .error (.exc (busError k))))) ∧
  (∀ (s : State) (rt base : Reg) (offset : BitVec 16) (e : Stop),
    (∀ x : Exc, s.stop (.exc x) = s.raise x) ∧ (∀ r : Fault, s.stop (.fault r) = .fault r) ∧
    (s.reach (s.ea base offset) 1 .load = .error e →
      ∀ i ∈ [Instr.lb rt base offset, .lbu rt base offset], exec i s = s.stop e) ∧
    (s.reach (s.ea base offset) 2 .load = .error e →
      ∀ i ∈ [Instr.lh rt base offset, .lhu rt base offset], exec i s = s.stop e) ∧
    (s.reach (s.ea base offset) 4 .load = .error e →
      exec (.lw rt base offset) s = s.stop e ∧
      (s.gate 1 = none → exec (.lwc1 rt base offset) s = s.stop e) ∧
      (s.gate 2 = none → exec (.lwc2 rt base offset) s = s.stop e) ∧
      (s.gate 3 = none → exec (.lwc3 rt base offset) s = s.stop e)) ∧
    (s.reachPart true (s.ea base offset) .load = .error e → exec (.lwl rt base offset) s = s.stop e) ∧
    (s.reachPart false (s.ea base offset) .load = .error e → exec (.lwr rt base offset) s = s.stop e) ∧
    (s.reach (s.ea base offset) 1 .store = .error e → exec (.sb rt base offset) s = s.stop e) ∧
    (s.reach (s.ea base offset) 2 .store = .error e → exec (.sh rt base offset) s = s.stop e) ∧
    (s.reach (s.ea base offset) 4 .store = .error e →
      exec (.sw rt base offset) s = s.stop e ∧
      (s.gate 1 = none → exec (.swc1 rt base offset) s = s.stop e) ∧
      (s.gate 2 = none → exec (.swc2 rt base offset) s = s.stop e) ∧
      (s.gate 3 = none → exec (.swc3 rt base offset) s = s.stop e)) ∧
    (s.reachPart true (s.ea base offset) .store = .error e → exec (.swl rt base offset) s = s.stop e) ∧
    (s.reachPart false (s.ea base offset) .store = .error e → exec (.swr rt base offset) s = s.stop e)) ∧
  (∀ (s : State) (a : Nat), s.reach s.pc 4 .fetch = .ok a →
    s.fetch =
      if s.cfg.fetchSeesStores = false ∧ ∃ d ∈ s.dirty, a ≤ d ∧ d < a + 4 then .error (.fault .staleFetch)
      else .ok (s.wordAt a)) ∧
  ∀ s : State, s.outcome = .running → s.interruptTaken = false →
    (∀ e, s.reach s.pc 4 .fetch = .error e → s.fetch = .error e) ∧
    (∀ e, s.fetch = .error e → step s = mapNext State.sampleInputs (s.stop e)) ∧
    (s.pc.toNat % 4 ≠ 0 → step s = mapNext State.sampleInputs (s.raise (.addressErrorLoad s.pc))) ∧
    (∀ pa : Word, s.pc.toNat % 4 = 0 → s.physical s.pc .fetch = .ok pa →
      (∃ i < 4, admits s.cfg.memDomain (pa.toNat + i) = false) →
      step s = mapNext State.sampleInputs (s.raise .busErrorFetch)) ∧
    (∀ a, s.reach s.pc 4 .fetch = .ok a → s.cfg.fetchSeesStores = false →
      (∃ d ∈ s.dirty, a ≤ d ∧ d < a + 4) → step s = .fault .staleFetch)

/-- The segments of the `mips1` address space, by their ranges; the flat space of the `fault` model (rules R61,
R62). -/
def Obligations.Segments : Prop :=
  ∀ (s : State) (va : Word) (k : Access),
    (s.cfg.trapModel = .fault → s.physical va k = .ok va) ∧
    (s.cfg.trapModel = .mips1 →
      (va.toNat < 0x80000000 → s.physical va k = s.translate va k) ∧
      (s.status.getLsbD 1 = true → 0x80000000 ≤ va.toNat →
        s.physical va k = .error (.exc (addressError k va))) ∧
      (s.status.getLsbD 1 = false → 0x80000000 ≤ va.toNat → va.toNat < 0xA0000000 →
        ∃ pa : Word, s.physical va k = .ok pa ∧ pa.toNat = va.toNat - 0x80000000) ∧
      (s.status.getLsbD 1 = false → 0xA0000000 ≤ va.toNat → va.toNat < 0xC0000000 →
        ∃ pa : Word, s.physical va k = .ok pa ∧ pa.toNat = va.toNat - 0xA0000000) ∧
      (s.status.getLsbD 1 = false → 0xC0000000 ≤ va.toNat → s.physical va k = s.translate va k))

/-- Translation: no matching entry is a refill, two are a fault, and one translates, or raises by its V and D
bits (rule R63). -/
def Obligations.Translation : Prop :=
  ∀ (s : State) (va : Word) (k : Access),
    ((∀ i e, ¬tlbHit s va i e) → s.translate va k = .error (.exc (tlbMiss k va true))) ∧
    (∀ i j e f, i ≠ j → tlbHit s va i e → tlbHit s va j f →
      s.translate va k = .error (.fault .tlbMultipleMatch)) ∧
    (∀ i e, tlbHit s va i e → (∀ j f, tlbHit s va j f → j = i) →
      s.translate va k =
        if e.lo.getLsbD 9 = false then .error (.exc (tlbMiss k va false))
        else if k = .store ∧ e.lo.getLsbD 10 = false then .error (.exc (.tlbMod va))
        else .ok (e.lo.extractLsb' 12 20 ++ va.extractLsb' 0 12))

/-- The bytes and halfwords of a stored word, in both byte orders (rule R52). -/
def Obligations.MixedWidth : Prop :=
  ∀ (s t : State) (va : Word), Memory.wf s.mem →
    s.store va (wordBytes s.cfg.bigEndian 0x11223344) = .ok t →
    (s.cfg.bigEndian = true → t.loadByte va = .ok 0x11 ∧ t.loadByte (va + 3) = .ok 0x44 ∧
      t.loadHalf va = .ok 0x1122 ∧ t.loadHalf (va + 2) = .ok 0x3344) ∧
    (s.cfg.bigEndian = false → t.loadByte va = .ok 0x44 ∧ t.loadByte (va + 3) = .ok 0x11 ∧
      t.loadHalf va = .ok 0x3344 ∧ t.loadHalf (va + 2) = .ok 0x1122)

/-- The loads of bytes, halfwords and words, when the access passes its checks (rules R51, R230, R240 to
R244). -/
def Obligations.Loads : Prop :=
  ∀ (s : State) (rt base : Reg) (offset : BitVec 16) (a : Nat),
    (s.reach (s.x base + offset.signExtend 32) 1 .load = .ok a →
      (∃ t, exec (.lb rt base offset) s = .next t ∧ After s t { pending := .gpr rt } ∧
        Frame s t [.gpr rt] ∧ t.holds rt ((s.byteAt a).signExtend 32)) ∧
      (∃ t, exec (.lbu rt base offset) s = .next t ∧ After s t { pending := .gpr rt } ∧
        Frame s t [.gpr rt] ∧ t.holds rt ((s.byteAt a).setWidth 32))) ∧
    (s.reach (s.x base + offset.signExtend 32) 2 .load = .ok a →
      (∃ t, exec (.lh rt base offset) s = .next t ∧ After s t { pending := .gpr rt } ∧
        Frame s t [.gpr rt] ∧ t.holds rt
          (if s.cfg.bigEndian then (s.byteAt a ++ s.byteAt (a + 1)).signExtend 32
          else (s.byteAt (a + 1) ++ s.byteAt a).signExtend 32)) ∧
      (∃ t, exec (.lhu rt base offset) s = .next t ∧ After s t { pending := .gpr rt } ∧
        Frame s t [.gpr rt] ∧ t.holds rt
          (if s.cfg.bigEndian then (s.byteAt a ++ s.byteAt (a + 1)).setWidth 32
          else (s.byteAt (a + 1) ++ s.byteAt a).setWidth 32))) ∧
    (s.reach (s.x base + offset.signExtend 32) 4 .load = .ok a →
      ∃ t, exec (.lw rt base offset) s = .next t ∧ After s t { pending := .gpr rt } ∧
        Frame s t [.gpr rt] ∧ t.holds rt
          (if s.cfg.bigEndian then s.byteAt a ++ s.byteAt (a + 1) ++ s.byteAt (a + 2) ++ s.byteAt (a + 3)
          else s.byteAt (a + 3) ++ s.byteAt (a + 2) ++ s.byteAt (a + 1) ++ s.byteAt a))

/-- The stores of bytes, halfwords and words, when the access passes its checks: the bytes at the physical
address of `s.ea base offset` become the register's, in the byte order in force, and enter `dirty`; no other
byte changes (rules R51, R230, R231, R250 to R252). -/
def Obligations.Stores : Prop :=
  ∀ (s : State) (rt base : Reg) (offset : BitVec 16) (a : Nat), Memory.wf s.mem →
    (s.reach (s.ea base offset) 1 .store = .ok a →
      ∃ t, exec (.sb rt base offset) s = .next t ∧ After s t {} ∧ Frame s t (storedAt a 1) ∧
        t.byteAt a = (s.x rt).extractLsb' 0 8 ∧ Memory.wf t.mem ∧
        (a ∈ t.dirty ↔ s.cfg.fetchSeesStores = false ∨ a ∈ s.dirty)) ∧
    (s.reach (s.ea base offset) 2 .store = .ok a →
      ∃ t, exec (.sh rt base offset) s = .next t ∧ After s t {} ∧ Frame s t (storedAt a 2) ∧
        (∀ i < 2, t.byteAt (a + i) =
          (s.x rt).extractLsb' (8 * (if s.cfg.bigEndian then 1 - i else i)) 8) ∧ Memory.wf t.mem ∧
        (∀ i < 2, a + i ∈ t.dirty ↔ s.cfg.fetchSeesStores = false ∨ a + i ∈ s.dirty)) ∧
    (s.reach (s.ea base offset) 4 .store = .ok a →
      ∃ t, exec (.sw rt base offset) s = .next t ∧ After s t {} ∧ Frame s t (storedAt a 4) ∧
        (∀ i < 4, t.byteAt (a + i) =
          (s.x rt).extractLsb' (8 * (if s.cfg.bigEndian then 3 - i else i)) 8) ∧ Memory.wf t.mem ∧
        (∀ i < 4, a + i ∈ t.dirty ↔ s.cfg.fetchSeesStores = false ∨ a + i ∈ s.dirty))

/-- `lwl` and `lwr` by the word formulas, `W` the aligned word and `k`, `j` = 3 - k the byte shift, when the bytes they
touch pass their checks (rules R232, R246, R247). -/
def Obligations.PartialLoads : Prop :=
  ∀ (s : State) (rt base : Reg) (offset : BitVec 16) (a b k : Nat), b = (s.ea base offset).toNat % 4 →
    k = (if s.cfg.bigEndian then b else 3 - b) →
    (s.reachPart true (s.ea base offset) .load = .ok a →
      ∃ t, exec (.lwl rt base offset) s = .next t ∧ After s t { pending := .gpr rt } ∧
        Frame s t [.gpr rt] ∧ t.holds rt
          ((s.wordAt a <<< (8 * k)) ||| (s.x rt &&& BitVec.ofNat 32 (2 ^ (8 * k) - 1)))) ∧
    (s.reachPart false (s.ea base offset) .load = .ok a →
      ∃ t, exec (.lwr rt base offset) s = .next t ∧ After s t { pending := .gpr rt } ∧
        Frame s t [.gpr rt] ∧ t.holds rt
          ((s.x rt &&& ~~~BitVec.ofNat 32 (2 ^ (32 - 8 * (3 - k)) - 1)) |||
            (s.wordAt a >>> (8 * (3 - k)))))

/-- `swl` and `swr` by the word formulas; only the bytes between the address and the end of its aligned word on
the instruction's side change, and they, and no other, enter `dirty` (rules R67, R232, R254, R255). -/
def Obligations.PartialStores : Prop :=
  ∀ (s : State) (rt base : Reg) (offset : BitVec 16) (a b k : Nat), Memory.wf s.mem →
    b = (s.ea base offset).toNat % 4 → k = (if s.cfg.bigEndian then b else 3 - b) →
    (s.reachPart true (s.ea base offset) .store = .ok a →
      ∃ t, exec (.swl rt base offset) s = .next t ∧ After s t {} ∧
        Frame s t (if s.cfg.bigEndian then storedAt (a + b) (4 - b) else storedAt a (b + 1)) ∧
        t.wordAt a =
          (s.wordAt a &&& ~~~BitVec.ofNat 32 (2 ^ (32 - 8 * k) - 1)) ||| (s.x rt >>> (8 * k)) ∧
        Memory.wf t.mem ∧ ∀ i < 4, (if s.cfg.bigEndian then b ≤ i else i ≤ b) →
          (a + i ∈ t.dirty ↔ s.cfg.fetchSeesStores = false ∨ a + i ∈ s.dirty)) ∧
    (s.reachPart false (s.ea base offset) .store = .ok a →
      ∃ t, exec (.swr rt base offset) s = .next t ∧ After s t {} ∧
        Frame s t (if s.cfg.bigEndian then storedAt a (b + 1) else storedAt (a + b) (4 - b)) ∧
        t.wordAt a = (s.x rt <<< (8 * (3 - k))) ||| (s.wordAt a &&& BitVec.ofNat 32 (2 ^ (8 * (3 - k)) - 1)) ∧
        Memory.wf t.mem ∧ ∀ i < 4, (if s.cfg.bigEndian then i ≤ b else b ≤ i) →
          (a + i ∈ t.dirty ↔ s.cfg.fetchSeesStores = false ∨ a + i ∈ s.dirty))

/-- The pair of `ulw` loads the unaligned word whatever the address, in the flat space (rules R232, R261). -/
def Obligations.UnalignedWord : Prop :=
  ∀ (s : State) (va old v w : Word), s.cfg.trapModel = .fault → va.toNat + 3 < 4294967296 →
    (s.cfg.bigEndian = true → s.loadPart true va old = .ok v → s.loadPart false (va + 3) v = .ok w →
      w = s.byteAt va.toNat ++ s.byteAt (va.toNat + 1) ++ s.byteAt (va.toNat + 2) ++
        s.byteAt (va.toNat + 3)) ∧
    (s.cfg.bigEndian = false → s.loadPart true (va + 3) old = .ok v → s.loadPart false va v = .ok w →
      w = s.byteAt (va.toNat + 3) ++ s.byteAt (va.toNat + 2) ++ s.byteAt (va.toNat + 1) ++
        s.byteAt va.toNat)

/-- A misaligned halfword or word access raises an address error of its kind and touches neither memory nor a
register; a byte access and `lwl`, `lwr`, `swl`, `swr` complete at every address whose aligned word can be accessed
(rule R54). -/
def Obligations.AlignmentErrors : Prop :=
  ∀ (s : State) (rt base : Reg) (offset : BitVec 16),
    ((s.ea base offset).toNat % 2 ≠ 0 →
      exec (.lh rt base offset) s = s.raise (.addressErrorLoad (s.ea base offset)) ∧
      exec (.lhu rt base offset) s = s.raise (.addressErrorLoad (s.ea base offset)) ∧
      exec (.sh rt base offset) s = s.raise (.addressErrorStore (s.ea base offset))) ∧
    ((s.ea base offset).toNat % 4 ≠ 0 →
      exec (.lw rt base offset) s = s.raise (.addressErrorLoad (s.ea base offset)) ∧
      exec (.sw rt base offset) s = s.raise (.addressErrorStore (s.ea base offset)) ∧
      (s.gate 1 = none →
        exec (.lwc1 rt base offset) s = s.raise (.addressErrorLoad (s.ea base offset)) ∧
        exec (.swc1 rt base offset) s = s.raise (.addressErrorStore (s.ea base offset))) ∧
      (s.gate 2 = none →
        exec (.lwc2 rt base offset) s = s.raise (.addressErrorLoad (s.ea base offset)) ∧
        exec (.swc2 rt base offset) s = s.raise (.addressErrorStore (s.ea base offset))) ∧
      (s.gate 3 = none →
        exec (.lwc3 rt base offset) s = s.raise (.addressErrorLoad (s.ea base offset)) ∧
        exec (.swc3 rt base offset) s = s.raise (.addressErrorStore (s.ea base offset)))) ∧
    (∀ (e : Exc) (t : State), s.raise e = .next t → t.mem = s.mem ∧ t.gpr = s.gpr ∧ t.fpr = s.fpr ∧
      t.cpr2 = s.cpr2 ∧ t.cpr3 = s.cpr3) ∧
    (∀ pa : Word, s.physical (s.ea base offset) .load = .ok pa →
      (∀ j < 4, admits s.cfg.memDomain (pa.toNat / 4 * 4 + j) = true) →
      ∀ i ∈ [Instr.lb rt base offset, .lbu rt base offset, .lwl rt base offset, .lwr rt base offset],
        ∃ t, exec i s = .next t ∧ After s t { pending := .gpr rt }) ∧
    (∀ pa : Word, s.physical (s.ea base offset) .store = .ok pa →
      (∀ j < 4, admits s.cfg.memDomain (pa.toNat / 4 * 4 + j) = true) →
      ∀ i ∈ [Instr.sb rt base offset, .swl rt base offset, .swr rt base offset],
        ∃ t, exec i s = .next t ∧ After s t {})

/-- The loads into coprocessor registers, when the coprocessor is usable and the access passes its checks;
`lwc0` is refused in every state (rules R245, R355, R431). -/
def Obligations.CoprocessorLoads : Prop :=
  (∀ (s : State) (rt base : Reg) (offset : BitVec 16),
    exec (.lwc0 rt base offset) s = .refused .cop0LoadStore) ∧
  ∀ (s : State) (rt base : Reg) (offset : BitVec 16) (a : Nat),
    s.reach (s.x base + offset.signExtend 32) 4 .load = .ok a →
    (s.gate 1 = none → ∃ t, exec (.lwc1 rt base offset) s = .next t ∧
      After s t { pending := .fpr rt } ∧ Frame s t [.fpr rt] ∧ t.f rt = s.wordAt a) ∧
    (s.gate 2 = none → ∃ t, exec (.lwc2 rt base offset) s = .next t ∧
      After s t {} ∧ Frame s t [.cpr2 rt] ∧ regGet t.cpr2 rt = s.wordAt a) ∧
    (s.gate 3 = none → ∃ t, exec (.lwc3 rt base offset) s = .next t ∧
      After s t {} ∧ Frame s t [.cpr3 rt] ∧ regGet t.cpr3 rt = s.wordAt a)

/-- The stores from coprocessor registers, when the coprocessor is usable and the access passes its checks: the
word is stored and its bytes enter `dirty`; `swc0` is refused in every state (rules R51, R67, R253, R355). -/
def Obligations.CoprocessorStores : Prop :=
  (∀ (s : State) (rt base : Reg) (offset : BitVec 16),
    exec (.swc0 rt base offset) s = .refused .cop0LoadStore) ∧
  ∀ (s : State) (rt base : Reg) (offset : BitVec 16) (a : Nat), Memory.wf s.mem →
    s.reach (s.ea base offset) 4 .store = .ok a →
    (s.gate 1 = none → ∃ t, exec (.swc1 rt base offset) s = .next t ∧
      After s t {} ∧ Frame s t (storedAt a 4) ∧ t.wordAt a = s.f rt ∧
      ∀ i < 4, a + i ∈ t.dirty ↔ s.cfg.fetchSeesStores = false ∨ a + i ∈ s.dirty) ∧
    (s.gate 2 = none → ∃ t, exec (.swc2 rt base offset) s = .next t ∧
      After s t {} ∧ Frame s t (storedAt a 4) ∧ t.wordAt a = regGet s.cpr2 rt ∧
      ∀ i < 4, a + i ∈ t.dirty ↔ s.cfg.fetchSeesStores = false ∨ a + i ∈ s.dirty) ∧
    (s.gate 3 = none → ∃ t, exec (.swc3 rt base offset) s = .next t ∧
      After s t {} ∧ Frame s t (storedAt a 4) ∧ t.wordAt a = regGet s.cpr3 rt ∧
      ∀ i < 4, a + i ∈ t.dirty ↔ s.cfg.fetchSeesStores = false ∨ a + i ∈ s.dirty)

/-! ## Data movement -/

/-- The moves between general and coprocessor registers, for coprocessors 1, 2 and 3 (rules R34, R276, R278,
R279, R280, R431). -/
def Obligations.CoprocessorMoves : Prop :=
  ∀ (s : State) (rt rd : Reg),
    (s.gate 1 = none →
      (∃ t, exec (.mfc1 rt rd) s = .next t ∧ After s t { pending := .gpr rt } ∧ Frame s t [.gpr rt] ∧
        t.holds rt (s.f rd)) ∧
      (∃ t, exec (.mtc1 rt rd) s = .next t ∧ After s t { pending := .fpr rd } ∧ Frame s t [.fpr rd] ∧
        t.f rd = s.x rt)) ∧
    (s.gate 2 = none →
      (∃ t, exec (.mfc2 rt rd) s = .next t ∧ After s t { pending := .gpr rt } ∧ Frame s t [.gpr rt] ∧
        t.holds rt (regGet s.cpr2 rd)) ∧
      (∃ t, exec (.mtc2 rt rd) s = .next t ∧ After s t {} ∧ Frame s t [.cpr2 rd] ∧
        regGet t.cpr2 rd = s.x rt) ∧
      (∃ t, exec (.cfc2 rt rd) s = .next t ∧ After s t { pending := .gpr rt } ∧ Frame s t [.gpr rt] ∧
        t.holds rt (regGet s.ccr2 rd)) ∧
      (∃ t, exec (.ctc2 rt rd) s = .next t ∧ After s t {} ∧ Frame s t [.ccr2 rd] ∧
        regGet t.ccr2 rd = s.x rt)) ∧
    (s.gate 3 = none →
      (∃ t, exec (.mfc3 rt rd) s = .next t ∧ After s t { pending := .gpr rt } ∧ Frame s t [.gpr rt] ∧
        t.holds rt (regGet s.cpr3 rd)) ∧
      (∃ t, exec (.mtc3 rt rd) s = .next t ∧ After s t {} ∧ Frame s t [.cpr3 rd] ∧
        regGet t.cpr3 rd = s.x rt) ∧
      (∃ t, exec (.cfc3 rt rd) s = .next t ∧ After s t { pending := .gpr rt } ∧ Frame s t [.gpr rt] ∧
        t.holds rt (regGet s.ccr3 rd)) ∧
      (∃ t, exec (.ctc3 rt rd) s = .next t ∧ After s t {} ∧ Frame s t [.ccr3 rd] ∧
        regGet t.ccr3 rd = s.x rt))

/-- The floating-point control registers: the FCR31 image, its flag and cause bits free; FCR0; the write of RM
and `C`; and the refusals (rules R33, R278, R279). -/
def Obligations.FpControl : Prop :=
  ∀ (s : State) (rt rd : Reg), s.gate 1 = none →
    (∃ t, exec (.cfc1 rt 31) s = .next t ∧ After s t { pending := .gpr rt } ∧
      Frame s t [.gpr rt, .draws] ∧ (rt ≠ 0 → (t.x rt).extractLsb' 0 2 = s.rm ∧
        (t.x rt).getLsbD 23 = s.fcc ∧ (t.x rt).extractLsb' 7 5 = 0 ∧ (t.x rt).extractLsb' 18 5 = 0 ∧
        (t.x rt).extractLsb' 24 8 = 0)) ∧
    (∃ t, exec (.cfc1 rt 0) s = .next t ∧ After s t { pending := .gpr rt } ∧ Frame s t [.gpr rt] ∧
      t.holds rt s.fcr0) ∧
    (rd ≠ 0 → rd ≠ 31 → exec (.cfc1 rt rd) s = .refused .fpControlRegister) ∧
    ((s.x rt).extractLsb' 7 5 = 0 → ∃ t, exec (.ctc1 rt 31) s = .next t ∧
      After s t { fccFresh := true } ∧ Frame s t [.rm, .fcc] ∧ t.rm = (s.x rt).extractLsb' 0 2 ∧
      t.fcc = (s.x rt).getLsbD 23) ∧
    (rd ≠ 31 ∨ (s.x rt).extractLsb' 7 5 ≠ 0 → exec (.ctc1 rt rd) s = .refused .fpControlRegister)

/-- `mfc0` reads each register of coprocessor 0, fields listed as 0 reading 0 and IP[7:2] live; a reserved
number is refused. That Random reads the field `random` is the model's choice, notes/assumptions/8.md, and that
the live levels are the field `intPins` is too, notes/assumptions/7.md (rules R36 to R40, R276). -/
def Obligations.ReadSystemRegister : Prop :=
  ∀ (s : State) (rt : Reg), s.gate 0 = none →
    (∀ (rd : Reg) (v : Word),
      (rd, v) ∈ [((0 : Reg), s.index &&& 0x80003F00), (1, s.random.setWidth 32 <<< 8),
        (2, s.entryLo &&& 0xFFFFFF00), (4, s.context &&& 0xFFFFFFFC), (8, s.badVAddr),
        (10, s.entryHi &&& 0xFFFFFFC0), (12, s.status &&& 0xF05CFF3F),
        (13, (s.cause &&& 0xB000037C) ||| (s.intPins.setWidth 32 <<< 10)), (14, s.epc), (15, s.prid)] →
      ∃ t, exec (.mfc0 rt rd) s = .next t ∧ After s t { pending := .gpr rt } ∧ Frame s t [.gpr rt] ∧
        t.holds rt v) ∧
    (∀ rd : Reg, rd ∉ [0, 1, 2, 4, 8, 10, 12, 13, 14, 15] → exec (.mfc0 rt rd) s = .refused .cp0Reserved)

/-- `mtc0` writes each register of coprocessor 0 by its access column: its writable bits only; a read-only
register discards the write; a reserved number and a Status value that sets RE, SwC or IsC are refused (rules
R36 to R40, R280). -/
def Obligations.WriteSystemRegister : Prop :=
  ∀ (s : State) (rt : Reg), s.gate 0 = none →
    (∃ t, exec (.mtc0 rt 0) s = .next t ∧ After s t {} ∧ Frame s t [.index] ∧
      ∀ k < 32, t.index.getLsbD k =
        if k = 31 ∨ (8 ≤ k ∧ k ≤ 13) then (s.x rt).getLsbD k else s.index.getLsbD k) ∧
    (∃ t, exec (.mtc0 rt 2) s = .next t ∧ After s t {} ∧ Frame s t [.entryLo] ∧
      ∀ k < 32, t.entryLo.getLsbD k = if 8 ≤ k then (s.x rt).getLsbD k else s.entryLo.getLsbD k) ∧
    (∃ t, exec (.mtc0 rt 4) s = .next t ∧ After s t {} ∧ Frame s t [.context] ∧
      ∀ k < 32, t.context.getLsbD k = if 21 ≤ k then (s.x rt).getLsbD k else s.context.getLsbD k) ∧
    (∃ t, exec (.mtc0 rt 10) s = .next t ∧ After s t {} ∧ Frame s t [.entryHi] ∧
      ∀ k < 32, t.entryHi.getLsbD k = if 6 ≤ k then (s.x rt).getLsbD k else s.entryHi.getLsbD k) ∧
    (∃ t, exec (.mtc0 rt 13) s = .next t ∧ After s t {} ∧ Frame s t [.cause] ∧
      ∀ k < 32, t.cause.getLsbD k = if k = 8 ∨ k = 9 then (s.x rt).getLsbD k else s.cause.getLsbD k) ∧
    (∀ rd ∈ [(1 : Reg), 8, 14, 15],
      ∃ t, exec (.mtc0 rt rd) s = .next t ∧ After s t {} ∧ Frame s t []) ∧
    (if (s.x rt).getLsbD 25 ∨ (s.x rt).getLsbD 17 ∨ (s.x rt).getLsbD 16 then
      exec (.mtc0 rt 12) s = .refused .cp0Reserved
    else
      ∃ t, exec (.mtc0 rt 12) s = .next t ∧ After s t {} ∧ Frame s t [.status] ∧
        ∀ k < 32, t.status.getLsbD k =
          if k ≤ 5 ∨ (8 ≤ k ∧ k ≤ 15) ∨ (18 ≤ k ∧ k ≤ 20) ∨ k = 22 ∨ 28 ≤ k then (s.x rt).getLsbD k
          else s.status.getLsbD k) ∧
    (∀ rd : Reg, rd ∉ [0, 1, 2, 4, 8, 10, 12, 13, 14, 15] → exec (.mtc0 rt rd) s = .refused .cp0Reserved)

/-! ## System instructions -/

/-- The instructions whose effect is an exception: `syscall` and `break` in every mode, `cfc0` and `ctc0` where
coprocessor 0 is usable, `cop2` and `cop3` where their coprocessor is not; a usable one's operation is refused.
An exception always answers a next state: in the `fault` model one that has no step, all else as it was (rules
R43, R278, R279, R351, R352, R361, R374, R375, R380). -/
def Obligations.RaisingInstructions : Prop :=
  ∀ (s : State) (code : BitVec 20) (rt rd : Reg) (cofun : BitVec 25),
    (∃ t, exec (.syscall code) s = .next t ∧ s.raise .syscall = .next t) ∧
    (∃ t, exec (.brk code) s = .next t ∧ s.raise .breakpoint = .next t) ∧
    (s.gate 0 = none → ∃ t, exec (.cfc0 rt rd) s = .next t ∧ s.raise .reservedInstruction = .next t) ∧
    (s.gate 0 = none → ∃ t, exec (.ctc0 rt rd) s = .next t ∧ s.raise .reservedInstruction = .next t) ∧
    (usableBy s 2 → exec (.cop2 cofun) s = .refused .coprocessorOperation) ∧
    (¬usableBy s 2 → ∃ t, exec (.cop2 cofun) s = .next t ∧ s.raise (.coprocessorUnusable 2) = .next t) ∧
    (usableBy s 3 → exec (.cop3 cofun) s = .refused .coprocessorOperation) ∧
    (¬usableBy s 3 → ∃ t, exec (.cop3 cofun) s = .next t ∧ s.raise (.coprocessorUnusable 3) = .next t) ∧
    (∀ e : Exc, (∃ t, s.raise e = .next t) ∧
      (s.cfg.trapModel = .fault → s.raise e = .next { s with outcome := .stopped e } ∧
        step { s with outcome := .stopped e } = .fault .runEnded))

/-- `rfe` pops the Status stack and changes nothing else; the spec's example (rule R356). -/
def Obligations.ReturnFromException : Prop :=
  (∀ s : State, s.gate 0 = none → ∃ t, exec .rfe s = .next t ∧ After s t {} ∧ Frame s t [.status] ∧
    ∀ k < 32, t.status.getLsbD k = if k < 4 then s.status.getLsbD (k + 2) else s.status.getLsbD k) ∧
  statusPop 0b110100 = 0b111101

/-- `tlbr`, `tlbwi` move the entry Index names, or are refused when there is none; `tlbwr` writes one entry
from 8 up; `tlbp` finds the one entry EntryHi matches, sets P when none does, and faults when two do (rules
R357 to R360). That `tlbwr` needs more than 8 entries is the model's choice: notes/assumptions/13.md. -/
def Obligations.TlbInstructions : Prop :=
  ∀ (s : State) (i : Nat), s.gate 0 = none → i = (s.index.extractLsb' 8 6).toNat →
    (∀ e, s.tlb[i]? = some e → ∃ t, exec .tlbr s = .next t ∧ After s t {} ∧
      Frame s t [.entryHi, .entryLo] ∧ t.entryHi = e.hi ∧ t.entryLo = e.lo) ∧
    (i < s.tlb.length → ∃ t, exec .tlbwi s = .next t ∧ After s t {} ∧ Frame s t [.tlb i] ∧
      t.tlb[i]? = some ⟨s.entryHi, s.entryLo⟩) ∧
    (s.tlb.length ≤ i → exec .tlbr s = .refused .tlbIndexRange ∧
      exec .tlbwi s = .refused .tlbIndexRange) ∧
    (8 < s.tlb.length → ∃ t j, exec .tlbwr s = .next t ∧ After s t {} ∧ Frame s t [.tlb j, .draws] ∧
      8 ≤ j ∧ j < s.tlb.length ∧ t.tlb[j]? = some ⟨s.entryHi, s.entryLo⟩) ∧
    ((∀ j e, ¬tlbHit s s.entryHi j e) → ∃ t, exec .tlbp s = .next t ∧ After s t {} ∧
      Frame s t [.index] ∧ t.index = 0x80000000) ∧
    (∀ j e, tlbHit s s.entryHi j e → (∀ k f, tlbHit s s.entryHi k f → k = j) →
      ∃ t, exec .tlbp s = .next t ∧ After s t {} ∧ Frame s t [.index] ∧
        t.index = BitVec.ofNat 32 (j * 256)) ∧
    (∀ j k e f, j ≠ k → tlbHit s s.entryHi j e → tlbHit s s.entryHi k f →
      exec .tlbp s = .fault .tlbMultipleMatch)

/-! ## Floating point -/

/-- Single- and double-precision arithmetic: the result the parameter `FP` gives for the operands under RM, or some
NaN. `FP` is a record of functions: at its default the exact result of the operands' values, rounded once; given
otherwise it is a record of which nothing is known (notes/assumptions/20.md). The two RM bits name the four
rounding modes (rules R33, R291, R293, R302, R303, R310, R311, R316, R317, R342, R343). -/
def Obligations.FpArithmetic : Prop :=
  (∀ s : State, (s.rm = 0 → s.roundMode = .nearestEven) ∧ (s.rm = 1 → s.roundMode = .towardZero) ∧
    (s.rm = 2 → s.roundMode = .up) ∧ (s.rm = 3 → s.roundMode = .down) ∧
    ∀ n, s.cfg.fp = .given n → s.fp = Config.givenFp n) ∧
  (∀ (s : State) (rm : RoundMode) (a b : Word) (x y : DWord), s.cfg.fp = .ieee754 →
    s.fp.add32 rm a b = rnd32 rm (FVal.add rm (val32 a) (val32 b)) ∧
    s.fp.sub32 rm a b = rnd32 rm (FVal.add rm (val32 a) (FVal.neg (val32 b))) ∧
    s.fp.mul32 rm a b = rnd32 rm (FVal.mul (val32 a) (val32 b)) ∧
    s.fp.div32 rm a b = rnd32 rm (FVal.div (val32 a) (val32 b)) ∧
    s.fp.add64 rm x y = rnd64 rm (FVal.add rm (val64 x) (val64 y)) ∧
    s.fp.sub64 rm x y = rnd64 rm (FVal.add rm (val64 x) (FVal.neg (val64 y))) ∧
    s.fp.mul64 rm x y = rnd64 rm (FVal.mul (val64 x) (val64 y)) ∧
    s.fp.div64 rm x y = rnd64 rm (FVal.div (val64 x) (val64 y))) ∧
  ∀ (s : State) (fd fs ft : Reg), s.gate 1 = none →
    (∃ t, exec (.addS fd fs ft) s = .next t ∧ After s t {} ∧ Frame s t [.fpr fd, .draws] ∧
      t.holdsSingle fd (s.fp.add32 s.roundMode (s.f fs) (s.f ft))) ∧
    (∃ t, exec (.subS fd fs ft) s = .next t ∧ After s t {} ∧ Frame s t [.fpr fd, .draws] ∧
      t.holdsSingle fd (s.fp.sub32 s.roundMode (s.f fs) (s.f ft))) ∧
    (∃ t, exec (.mulS fd fs ft) s = .next t ∧ After s t {} ∧ Frame s t [.fpr fd, .draws] ∧
      t.holdsSingle fd (s.fp.mul32 s.roundMode (s.f fs) (s.f ft))) ∧
    (∃ t, exec (.divS fd fs ft) s = .next t ∧ After s t {} ∧ Frame s t [.fpr fd, .draws] ∧
      t.holdsSingle fd (s.fp.div32 s.roundMode (s.f fs) (s.f ft))) ∧
    (evenReg fd = true → evenReg fs = true → evenReg ft = true →
      (∃ t, exec (.addD fd fs ft) s = .next t ∧ After s t {} ∧
        Frame s t [.fpr fd, .fpr (fd + 1), .draws] ∧
        t.holdsDouble fd (s.fp.add64 s.roundMode (s.d fs) (s.d ft))) ∧
      (∃ t, exec (.subD fd fs ft) s = .next t ∧ After s t {} ∧
        Frame s t [.fpr fd, .fpr (fd + 1), .draws] ∧
        t.holdsDouble fd (s.fp.sub64 s.roundMode (s.d fs) (s.d ft))) ∧
      (∃ t, exec (.mulD fd fs ft) s = .next t ∧ After s t {} ∧
        Frame s t [.fpr fd, .fpr (fd + 1), .draws] ∧
        t.holdsDouble fd (s.fp.mul64 s.roundMode (s.d fs) (s.d ft))) ∧
      (∃ t, exec (.divD fd fs ft) s = .next t ∧ After s t {} ∧
        Frame s t [.fpr fd, .fpr (fd + 1), .draws] ∧
        t.holdsDouble fd (s.fp.div64 s.roundMode (s.d fs) (s.d ft))))

/-- The four operations before rounding: of finite values the exact sum, product and quotient; an exact zero sum has
the sign of its operands, or, where they differ, is -0 when rounding down and +0 otherwise; NaN operands and
invalid operations give a NaN; infinities behave as limits, in either order; a non-zero value over zero is an
infinity with the sign product (rules R291, R293). -/
def Obligations.FpSpecialCases : Prop :=
  (∀ (rm : RoundMode) (p q : Bool) (a b c d : Nat), b ≠ 0 → d ≠ 0 →
    (∃ r n m, m ≠ 0 ∧ FVal.add rm (.rat p a b) (.rat q c d) = .rat r n m ∧
      signedQuot r n m = signedQuot p a b + signedQuot q c d) ∧
    (signedQuot p a b + signedQuot q c d = 0 → ∃ k, k ≠ 0 ∧
      FVal.add rm (.rat p a b) (.rat q c d) = .rat (if p = q then p else rm = .down) 0 k) ∧
    (∃ n m, m ≠ 0 ∧ FVal.mul (.rat p a b) (.rat q c d) = .rat (p != q) n m ∧
      signedQuot (p != q) n m = signedQuot p a b * signedQuot q c d) ∧
    (c ≠ 0 → ∃ n m, m ≠ 0 ∧ FVal.div (.rat p a b) (.rat q c d) = .rat (p != q) n m ∧
      signedQuot (p != q) n m = signedQuot p a b / signedQuot q c d)) ∧
  ∀ (rm : RoundMode) (v : FVal) (p q : Bool) (n d c m : Nat), n ≠ 0 → d ≠ 0 → c ≠ 0 → m ≠ 0 →
    FVal.add rm .nan v = .nan ∧ FVal.add rm v .nan = .nan ∧ FVal.mul .nan v = .nan ∧
    FVal.mul v .nan = .nan ∧ FVal.div .nan v = .nan ∧ FVal.div v .nan = .nan ∧
    FVal.add rm (.inf p) (FVal.neg (.inf p)) = .nan ∧
    FVal.mul (.rat p 0 d) (.inf q) = .nan ∧ FVal.mul (.inf q) (.rat p 0 d) = .nan ∧
    FVal.div (.rat p 0 d) (.rat q 0 m) = .nan ∧ FVal.div (.inf p) (.inf q) = .nan ∧
    FVal.div (.rat p n d) (.rat q 0 m) = .inf (p != q) ∧
    FVal.div (.inf p) (.rat q n d) = .inf (p != q) ∧
    FVal.add rm (.inf p) (.rat q c m) = .inf p ∧ FVal.mul (.inf p) (.rat q n d) = .inf (p != q) ∧
    FVal.add rm (.rat q c m) (.inf p) = .inf p ∧ FVal.mul (.rat q n d) (.inf p) = .inf (p != q) ∧
    FVal.add rm (.inf p) (.rat q 0 m) = .inf p ∧ FVal.add rm (.rat q 0 m) (.inf p) = .inf p ∧
    FVal.add rm (.inf p) (.inf p) = .inf p ∧ FVal.mul (.inf p) (.inf q) = .inf (p != q) ∧
    FVal.div (.inf p) (.rat q 0 m) = .inf (p != q) ∧
    FVal.neg (.inf p) = .inf (!p) ∧ FVal.neg (.rat p c m) = .rat (!p) c m ∧ FVal.neg .nan = .nan ∧
    (∃ k, FVal.add rm (.rat p n d) (FVal.neg (.rat p n d)) = .rat (rm = .down) 0 k) ∧
    (∃ k l, FVal.div (.rat p n d) (.inf q) = .rat (p != q) 0 k ∧
      FVal.mul (.rat p 0 d) (.rat q c m) = .rat (p != q) 0 l) ∧
    (∃ k, FVal.div (.rat p 0 d) (.inf q) = .rat (p != q) 0 k)

/-- The value of every bit pattern, subnormals included, in both formats; rounding a representable value gives that
value back, in every mode, signed zeros and infinities included; and every single, and every 32-bit integer, is
exactly a double (rules R291, R304, R305). -/
def Obligations.RoundingExact : Prop :=
  (∀ (b : Word) (e m : Nat), e = (b.extractLsb' 23 8).toNat → m = (b.extractLsb' 0 23).toNat →
    if e = 255 then val32 b = if m = 0 then .inf b.msb else .nan
    else ∃ n d, d ≠ 0 ∧ val32 b = .rat b.msb n d ∧
      (n : ℚ) / d = if e = 0 then (m : ℚ) / 2 ^ 149 else (2 ^ 23 + m : ℚ) * 2 ^ e / 2 ^ 150) ∧
  (∀ (b : DWord) (e m : Nat), e = (b.extractLsb' 52 11).toNat → m = (b.extractLsb' 0 52).toNat →
    if e = 2047 then val64 b = if m = 0 then .inf b.msb else .nan
    else ∃ n d, d ≠ 0 ∧ val64 b = .rat b.msb n d ∧
      (n : ℚ) / d = if e = 0 then (m : ℚ) / 2 ^ 1074 else (2 ^ 52 + m : ℚ) * 2 ^ e / 2 ^ 1075) ∧
  (∀ (rm : RoundMode) (b : Word), val32 b ≠ .nan → rnd32 rm (val32 b) = some b) ∧
  (∀ (rm : RoundMode) (b : DWord), val64 b ≠ .nan → rnd64 rm (val64 b) = some b) ∧
  (∀ (rm : RoundMode) (b : Word), val32 b ≠ .nan →
    ∃ v, rnd64 rm (val32 b) = some v ∧ FVal.eq (val64 v) (val32 b) = true) ∧
  (∀ (rm : RoundMode) (b : Word),
    ∃ v, rnd64 rm (FVal.ofInt b.toInt) = some v ∧ FVal.eq (val64 v) (FVal.ofInt b.toInt) = true)

/-- Rounding is correct in every mode, as the default of the parameter `FP` rounds
(notes/assumptions/20.md, rule R291): the sign is kept; rounding down gives the greatest value of the format not
above the exact one, rounding up the least not below it, toward zero the one of the two on the side of zero;
rounding to nearest gives a nearest finite value, the even one of two, or an infinity from half a unit beyond the
greatest finite value on. -/
def Obligations.RoundingCorrect : Prop :=
  (∀ (rm : RoundMode) (p : Bool) (n d : Nat), d ≠ 0 → ∃ b, rnd32 rm (.rat p n d) = some b ∧
    b.msb = p ∧
    (rm = .down ∨ rm = .towardZero ∧ p = false → FVal.lt (.rat p n d) (val32 b) = false ∧
      ∀ c, val32 c ≠ .nan → FVal.lt (.rat p n d) (val32 c) = false → FVal.lt (val32 b) (val32 c) = false) ∧
    (rm = .up ∨ rm = .towardZero ∧ p = true → FVal.lt (val32 b) (.rat p n d) = false ∧
      ∀ c, val32 c ≠ .nan → FVal.lt (val32 c) (.rat p n d) = false → FVal.lt (val32 c) (val32 b) = false) ∧
    (rm = .nearestEven → (val32 b = .inf p ↔ (2 ^ 25 - 1) * 2 ^ 103 * d ≤ n) ∧
      ∀ c q a m r e k, val32 b = .rat q a m → val32 c = .rat r e k →
        |signedQuot q a m - signedQuot p n d| ≤ |signedQuot r e k - signedQuot p n d| ∧
        (|signedQuot q a m - signedQuot p n d| = |signedQuot r e k - signedQuot p n d| →
          signedQuot q a m ≠ signedQuot r e k → b.getLsbD 0 = false))) ∧
  (∀ (rm : RoundMode) (p : Bool) (n d : Nat), d ≠ 0 → ∃ b, rnd64 rm (.rat p n d) = some b ∧
    b.msb = p ∧
    (rm = .down ∨ rm = .towardZero ∧ p = false → FVal.lt (.rat p n d) (val64 b) = false ∧
      ∀ c, val64 c ≠ .nan → FVal.lt (.rat p n d) (val64 c) = false → FVal.lt (val64 b) (val64 c) = false) ∧
    (rm = .up ∨ rm = .towardZero ∧ p = true → FVal.lt (val64 b) (.rat p n d) = false ∧
      ∀ c, val64 c ≠ .nan → FVal.lt (val64 c) (.rat p n d) = false → FVal.lt (val64 c) (val64 b) = false) ∧
    (rm = .nearestEven → (val64 b = .inf p ↔ (2 ^ 54 - 1) * 2 ^ 970 * d ≤ n) ∧
      ∀ c q a m r e k, val64 b = .rat q a m → val64 c = .rat r e k →
        |signedQuot q a m - signedQuot p n d| ≤ |signedQuot r e k - signedQuot p n d| ∧
        (|signedQuot q a m - signedQuot p n d| = |signedQuot r e k - signedQuot p n d| →
          signedQuot q a m ≠ signedQuot r e k → b.getLsbD 0 = false)))

/-- `abs` and `neg` give the result of the parameter `FP`, at its default the operand with only the sign bit
changed, and some NaN for a NaN; `mov` copies the bits, a NaN's included (rules R293, R300,
R301, R314, R315, R318, R319). -/
def Obligations.FpSignAndMove : Prop :=
  (∀ (s : State) (a : Word) (x : DWord), s.cfg.fp = .ieee754 →
    s.fp.abs32 a = (if val32 a = .nan then none else some (a &&& 0x7FFFFFFF)) ∧
    s.fp.neg32 a = (if val32 a = .nan then none else some (a ^^^ 0x80000000)) ∧
    s.fp.abs64 x = (if val64 x = .nan then none else some (x &&& 0x7FFFFFFFFFFFFFFF)) ∧
    s.fp.neg64 x = (if val64 x = .nan then none else some (x ^^^ 0x8000000000000000))) ∧
  ∀ (s : State) (fd fs : Reg), s.gate 1 = none →
    (∃ t, exec (.absS fd fs) s = .next t ∧ After s t {} ∧ Frame s t [.fpr fd, .draws] ∧
      t.holdsSingle fd (s.fp.abs32 (s.f fs))) ∧
    (∃ t, exec (.negS fd fs) s = .next t ∧ After s t {} ∧ Frame s t [.fpr fd, .draws] ∧
      t.holdsSingle fd (s.fp.neg32 (s.f fs))) ∧
    (∃ t, exec (.movS fd fs) s = .next t ∧ After s t {} ∧ Frame s t [.fpr fd] ∧ t.f fd = s.f fs) ∧
    (evenReg fd = true → evenReg fs = true →
      (∃ t, exec (.absD fd fs) s = .next t ∧ After s t {} ∧ Frame s t [.fpr fd, .fpr (fd + 1), .draws] ∧
        t.holdsDouble fd (s.fp.abs64 (s.d fs))) ∧
      (∃ t, exec (.negD fd fs) s = .next t ∧ After s t {} ∧ Frame s t [.fpr fd, .fpr (fd + 1), .draws] ∧
        t.holdsDouble fd (s.fp.neg64 (s.d fs))) ∧
      (∃ t, exec (.movD fd fs) s = .next t ∧ After s t {} ∧ Frame s t [.fpr fd, .fpr (fd + 1)] ∧
        t.d fd = s.d fs))

/-- The conversions give the result of the parameter `FP` under RM, some NaN or some word where it has none. At the
default they are: between the formats and from an integer, the value rounded; to an integer, the value rounded to
an integer where that is a 32-bit one, no result elsewhere. The rounding to an integer is the floor rounding down,
the ceiling rounding up, the one on the side of zero toward zero, and a nearest integer, the even one of two, to
nearest; only NaNs and infinities have none (rules R293, R304 to R309). -/
def Obligations.FpConversions : Prop :=
  (∀ (rm : RoundMode) (p : Bool) (n d : Nat), d ≠ 0 → ∃ r : Int, FVal.roundInt rm (.rat p n d) = some r ∧
    (rm = .down → r = ⌊signedQuot p n d⌋) ∧ (rm = .up → r = ⌈signedQuot p n d⌉) ∧
    (rm = .towardZero → r = if p then ⌈signedQuot p n d⌉ else ⌊signedQuot p n d⌋) ∧
    (rm = .nearestEven → |(r : ℚ) - signedQuot p n d| ≤ 1 / 2 ∧
      (|(r : ℚ) - signedQuot p n d| = 1 / 2 → r % 2 = 0))) ∧
  (∀ (rm : RoundMode) (v : FVal), FVal.roundInt rm v = none ↔ v = .nan ∨ ∃ p, v = .inf p) ∧
  (∀ (s : State) (rm : RoundMode) (a : Word) (x : DWord), s.cfg.fp = .ieee754 →
    s.fp.doubleOfSingle rm a = rnd64 rm (val32 a) ∧
    s.fp.doubleOfWord rm a = rnd64 rm (FVal.ofInt a.toInt) ∧
    s.fp.singleOfWord rm a = rnd32 rm (FVal.ofInt a.toInt) ∧
    s.fp.singleOfDouble rm x = rnd32 rm (val64 x) ∧
    (∀ r, FVal.roundInt rm (val32 a) = some r → -2147483648 ≤ r → r ≤ 2147483647 →
      ∃ w, s.fp.wordOfSingle rm a = some w ∧ w.toInt = r) ∧
    ((∀ r, FVal.roundInt rm (val32 a) = some r → r < -2147483648 ∨ 2147483647 < r) →
      s.fp.wordOfSingle rm a = none) ∧
    (∀ r, FVal.roundInt rm (val64 x) = some r → -2147483648 ≤ r → r ≤ 2147483647 →
      ∃ w, s.fp.wordOfDouble rm x = some w ∧ w.toInt = r) ∧
    ((∀ r, FVal.roundInt rm (val64 x) = some r → r < -2147483648 ∨ 2147483647 < r) →
      s.fp.wordOfDouble rm x = none)) ∧
  ∀ (s : State) (fd fs : Reg), s.gate 1 = none →
    (evenReg fd = true →
      (∃ t, exec (.cvtDS fd fs) s = .next t ∧ After s t {} ∧ Frame s t [.fpr fd, .fpr (fd + 1), .draws] ∧
        t.holdsDouble fd (s.fp.doubleOfSingle s.roundMode (s.f fs))) ∧
      (∃ t, exec (.cvtDW fd fs) s = .next t ∧ After s t {} ∧ Frame s t [.fpr fd, .fpr (fd + 1), .draws] ∧
        t.holdsDouble fd (s.fp.doubleOfWord s.roundMode (s.f fs)))) ∧
    (∃ t, exec (.cvtSW fd fs) s = .next t ∧ After s t {} ∧ Frame s t [.fpr fd, .draws] ∧
      t.holdsSingle fd (s.fp.singleOfWord s.roundMode (s.f fs))) ∧
    (∃ t, exec (.cvtWS fd fs) s = .next t ∧ After s t {} ∧ Frame s t [.fpr fd, .draws] ∧
      ∀ w, s.fp.wordOfSingle s.roundMode (s.f fs) = some w → t.f fd = w) ∧
    (evenReg fs = true →
      (∃ t, exec (.cvtSD fd fs) s = .next t ∧ After s t {} ∧ Frame s t [.fpr fd, .draws] ∧
        t.holdsSingle fd (s.fp.singleOfDouble s.roundMode (s.d fs))) ∧
      (∃ t, exec (.cvtWD fd fs) s = .next t ∧ After s t {} ∧ Frame s t [.fpr fd, .draws] ∧
        ∀ w, s.fp.wordOfDouble s.roundMode (s.d fs) = some w → t.f fd = w))

/-- The sixteen compares in both formats, by the table of rule R320, on what the comparison of the parameter `FP`
finds; at its default less and equal are those of the values, and unordered that one is a NaN (rules R320 to
R336). -/
def Obligations.Compares : Prop :=
  (∀ (s : State) (a b : Word) (x y : DWord), s.cfg.fp = .ieee754 →
    s.fp.relation32 a b = ⟨FVal.lt (val32 a) (val32 b), FVal.eq (val32 a) (val32 b),
      (val32 a = .nan ∨ val32 b = .nan : Bool)⟩ ∧
    s.fp.relation64 x y = ⟨FVal.lt (val64 x) (val64 y), FVal.eq (val64 x) (val64 y),
      (val64 x = .nan ∨ val64 y = .nan : Bool)⟩) ∧
  ∀ (s : State) (fs ft : Reg), s.gate 1 = none →
    (∀ l e u : Bool, s.fp.relation32 (s.f fs) (s.f ft) = ⟨l, e, u⟩ →
      ComparesTo s (.cFS fs ft) false ∧ ComparesTo s (.cUnS fs ft) u ∧ ComparesTo s (.cEqS fs ft) e ∧
      ComparesTo s (.cUeqS fs ft) (u || e) ∧ ComparesTo s (.cOltS fs ft) l ∧
      ComparesTo s (.cUltS fs ft) (u || l) ∧ ComparesTo s (.cOleS fs ft) (l || e) ∧
      ComparesTo s (.cUleS fs ft) (u || l || e) ∧ ComparesTo s (.cSfS fs ft) false ∧
      ComparesTo s (.cNgleS fs ft) u ∧ ComparesTo s (.cSeqS fs ft) e ∧
      ComparesTo s (.cNglS fs ft) (u || e) ∧ ComparesTo s (.cLtS fs ft) l ∧
      ComparesTo s (.cNgeS fs ft) (u || l) ∧ ComparesTo s (.cLeS fs ft) (l || e) ∧
      ComparesTo s (.cNgtS fs ft) (u || l || e)) ∧
    (evenReg fs = true → evenReg ft = true →
      ∀ l e u : Bool, s.fp.relation64 (s.d fs) (s.d ft) = ⟨l, e, u⟩ →
      ComparesTo s (.cFD fs ft) false ∧ ComparesTo s (.cUnD fs ft) u ∧ ComparesTo s (.cEqD fs ft) e ∧
      ComparesTo s (.cUeqD fs ft) (u || e) ∧ ComparesTo s (.cOltD fs ft) l ∧
      ComparesTo s (.cUltD fs ft) (u || l) ∧ ComparesTo s (.cOleD fs ft) (l || e) ∧
      ComparesTo s (.cUleD fs ft) (u || l || e) ∧ ComparesTo s (.cSfD fs ft) false ∧
      ComparesTo s (.cNgleD fs ft) u ∧ ComparesTo s (.cSeqD fs ft) e ∧
      ComparesTo s (.cNglD fs ft) (u || e) ∧ ComparesTo s (.cLtD fs ft) l ∧
      ComparesTo s (.cNgeD fs ft) (u || l) ∧ ComparesTo s (.cLeD fs ft) (l || e) ∧
      ComparesTo s (.cNgtD fs ft) (u || l || e))

/-- Less, equal and unordered are what they say of finite values, zeros of either sign equal; infinities are
the extreme values, each equal to itself; exactly one of less, equal, greater and unordered
holds, in either format (rule R320). -/
def Obligations.CompareOrder : Prop :=
  (∀ (p q : Bool) (a b c d : Nat), b ≠ 0 → d ≠ 0 →
    (FVal.lt (.rat p a b) (.rat q c d) = true ↔ signedQuot p a b < signedQuot q c d) ∧
    (FVal.eq (.rat p a b) (.rat q c d) = true ↔ signedQuot p a b = signedQuot q c d) ∧
    FVal.lt (.inf true) (.rat p a b) = true ∧ FVal.lt (.rat p a b) (.inf false) = true) ∧
  (FVal.lt (.inf true) (.inf false) = true ∧ ∀ p q : Bool, (FVal.eq (.inf p) (.inf q) = true ↔ p = q)) ∧
  (∀ x y : Word,
    [FVal.lt (val32 x) (val32 y), FVal.lt (val32 y) (val32 x), FVal.eq (val32 x) (val32 y),
      (val32 x).isNaN || (val32 y).isNaN].count true = 1) ∧
  ∀ x y : DWord,
    [FVal.lt (val64 x) (val64 y), FVal.lt (val64 y) (val64 x), FVal.eq (val64 x) (val64 y),
      (val64 x).isNaN || (val64 y).isNaN].count true = 1

/-! ## Exceptions, interrupts, modes -/

/-- Trap entry: what it saves, where it goes, what the mode becomes, and that nothing else changes. That
`fcc_fresh` stays is the model's choice, notes/assumptions/12.md, and so is that `npc` and `in_delay` stay without
`DELAY_SLOTS`, notes/assumptions/11.md (rules R379, R381). -/
def Obligations.TrapEntry : Prop :=
  ∀ (s : State) (e : Exc), s.cfg.trapModel = .mips1 → ∃ t, s.raise e = .next t ∧
    (if s.cfg.delaySlots = true ∧ s.inDelay = true then t.epc = s.pc - 4 ∧ t.cause.getLsbD 31 = true
    else t.epc = s.pc ∧ t.cause.getLsbD 31 = false) ∧
    t.cause.extractLsb' 2 5 = e.code ∧
    (∀ z, e = .coprocessorUnusable z → t.cause.extractLsb' 28 2 = z) ∧
    t.cause.extractLsb' 8 2 = s.cause.extractLsb' 8 2 ∧
    (∀ va, e = .addressErrorLoad va ∨ e = .addressErrorStore va →
      t.badVAddr = va ∧ t.context = s.context ∧ t.entryHi = s.entryHi) ∧
    (∀ va r, e = .tlbMod va ∨ e = .tlbLoad va r ∨ e = .tlbStore va r → t.badVAddr = va ∧
      t.context.extractLsb' 2 19 = va.extractLsb' 12 19 ∧
      t.context.extractLsb' 21 11 = s.context.extractLsb' 21 11 ∧
      t.entryHi.extractLsb' 12 20 = va.extractLsb' 12 20 ∧
      t.entryHi.extractLsb' 6 6 = s.entryHi.extractLsb' 6 6) ∧
    (e.badAddress = none → t.badVAddr = s.badVAddr ∧ t.context = s.context ∧ t.entryHi = s.entryHi) ∧
    (∀ k < 32, t.status.getLsbD k =
      if k < 2 then false else if k < 6 then s.status.getLsbD (k - 2) else s.status.getLsbD k) ∧
    t.pc = s.vector e ∧ (s.cfg.delaySlots = true → t.npc = s.vector e + 4 ∧ t.inDelay = false) ∧
    (s.cfg.delaySlots = false → t.npc = s.npc ∧ t.inDelay = s.inDelay) ∧
    t.loadPending = .none ∧ t.hiloAge = s.hiloAge ∧ t.fccFresh = s.fccFresh ∧
    Frame s t [.epc, .cause, .badVAddr, .context, .entryHi, .status, .draws]

/-- The vectors, and the codes an exception writes (rules R370, R382). -/
def Obligations.VectorsAndCodes : Prop :=
  (∀ (s : State) (va : Word), s.status.getLsbD 22 = false →
    s.vector (.tlbLoad va true) = (if va.toNat < 2147483648 then 0x80000000 else 0x80000080) ∧
    s.vector (.tlbStore va true) = (if va.toNat < 2147483648 then 0x80000000 else 0x80000080)) ∧
  (∀ (s : State) (va : Word), s.status.getLsbD 22 = true →
    s.vector (.tlbLoad va true) = (if va.toNat < 2147483648 then 0xBFC00100 else 0xBFC00180) ∧
    s.vector (.tlbStore va true) = (if va.toNat < 2147483648 then 0xBFC00100 else 0xBFC00180)) ∧
  (∀ (s : State) (e : Exc), (∀ va, e ≠ .tlbLoad va true ∧ e ≠ .tlbStore va true) →
    s.vector e = if s.status.getLsbD 22 then 0xBFC00180 else 0x80000080) ∧
  (∀ (va : Word) (r : Bool) (z : CopNum),
    [Exc.interrupt, .tlbMod va, .tlbLoad va r, .tlbStore va r, .addressErrorLoad va,
      .addressErrorStore va, .busErrorFetch, .busErrorData, .syscall, .breakpoint, .reservedInstruction,
      .coprocessorUnusable z, .overflow].map (fun e => e.code.toNat) = List.range 13)

/-- Exceptions are precise: an instruction that answers a next state has either raised one exception on the
state as it was, or completed, the run going on as it was (rule R380). -/
def Obligations.ExceptionsPrecise : Prop :=
  ∀ (i : Instr) (s t : State), exec i s = .next t →
    (∃ e, s.raise e = .next t) ∨
      (∃ c, After s t c) ∧ t.cfg = s.cfg ∧ t.outcome = s.outcome ∧ t.epc = s.epc ∧
        t.badVAddr = s.badVAddr ∧ t.intPins = s.intPins ∧ t.random = s.random

/-- An interrupt is taken exactly when IEc is 1 and some source is pending and enabled; it is taken before the
fetch, as trap entry at the instruction about to execute; the `fault` model takes none. The levels a step sees
are the model's field `intPins`: notes/assumptions/7.md (rules R391, R393). -/
def Obligations.Interrupts : Prop :=
  (∀ s : State, s.cfg.trapModel = .mips1 → (s.interruptTaken = true ↔
    s.status.getLsbD 0 = true ∧ ∃ i < 8, s.status.getLsbD (8 + i) = true ∧
      (if i < 2 then s.cause.getLsbD (8 + i) else s.intPins.getLsbD (i - 2)) = true)) ∧
  (∀ s : State, s.outcome = .running → s.interruptTaken = true →
    step s = mapNext State.sampleInputs (s.raise .interrupt)) ∧
  (∀ s : State, s.cfg.trapModel = .fault → s.interruptTaken = false ∧ s.sampleInputs = s)

/-- The hazard faults: the use of a register just loaded, the write of `hi` or `lo` within two instructions of
a read, the branch on a condition just set, the branch in a delay slot where no fault comes before it; none where
its parameter is off. What an instruction reads is rule R431's, a double counting both registers of its pair
whichever number names it (notes/assumptions/12.md); the branches are rule R27's (rules R27, R28, R431, R432,
R433). -/
def Obligations.Hazards : Prop :=
  (∀ (i : Instr) (r : Reg), r ∈ gprSources i ↔ ∃ (rd rs rt : Reg) (imm : BitVec 16),
      ((r = rs ∨ r = rt) ∧ i ∈
        [Instr.add rd rs rt, .addu rd rs rt, .sub rd rs rt, .subu rd rs rt, .and rd rs rt, .or rd rs rt,
        .xor rd rs rt, .nor rd rs rt, .slt rd rs rt, .sltu rd rs rt, .sllv rd rt rs, .srlv rd rt rs,
        .srav rd rt rs, .mult rs rt, .multu rs rt, .div rs rt, .divu rs rt, .beq rs rt imm, .bne rs rt imm,
        .sb rt rs imm, .sh rt rs imm, .sw rt rs imm, .swl rt rs imm, .swr rt rs imm]) ∨
      (r = rs ∧ i ∈ [Instr.addi rt rs imm, .addiu rt rs imm, .andi rt rs imm, .ori rt rs imm, .xori rt rs imm,
        .slti rt rs imm, .sltiu rt rs imm, .blez rs imm, .bgtz rs imm, .bltz rs imm, .bgez rs imm,
        .bltzal rs imm, .bgezal rs imm, .jr rs, .jalr rs rd, .mthi rs, .mtlo rs, .lb rt rs imm,
        .lbu rt rs imm, .lh rt rs imm, .lhu rt rs imm, .lw rt rs imm, .lwl rt rs imm, .lwr rt rs imm,
        .lwc0 rt rs imm, .lwc1 rt rs imm, .lwc2 rt rs imm, .lwc3 rt rs imm, .swc0 rt rs imm, .swc1 rt rs imm,
        .swc2 rt rs imm, .swc3 rt rs imm]) ∨
      (r = rt ∧ i ∈
        [Instr.sll rd rt rs, .srl rd rt rs, .sra rd rt rs, .mtc0 rt rd, .mtc1 rt rd, .mtc2 rt rd, .mtc3 rt rd,
        .ctc0 rt rd, .ctc1 rt rd, .ctc2 rt rd, .ctc3 rt rd])) ∧
  (∀ (i : Instr) (r : Reg), r ∈ fprSources i ↔ ∃ (fd fs ft : Reg) (imm : BitVec 16),
      ((r = fs ∨ r = ft) ∧ i ∈
        [Instr.addS fd fs ft, .subS fd fs ft, .mulS fd fs ft, .divS fd fs ft, .cFS fs ft, .cUnS fs ft,
        .cEqS fs ft, .cUeqS fs ft, .cOltS fs ft, .cUltS fs ft, .cOleS fs ft, .cUleS fs ft, .cSfS fs ft,
        .cNgleS fs ft, .cSeqS fs ft, .cNglS fs ft, .cLtS fs ft, .cNgeS fs ft, .cLeS fs ft, .cNgtS fs ft]) ∨
      ((r.toNat / 2 = fs.toNat / 2 ∨ r.toNat / 2 = ft.toNat / 2) ∧ i ∈
        [Instr.addD fd fs ft, .subD fd fs ft, .mulD fd fs ft, .divD fd fs ft, .cFD fs ft, .cUnD fs ft,
        .cEqD fs ft, .cUeqD fs ft, .cOltD fs ft, .cUltD fs ft, .cOleD fs ft, .cUleD fs ft, .cSfD fs ft,
        .cNgleD fs ft, .cSeqD fs ft, .cNglD fs ft, .cLtD fs ft, .cNgeD fs ft, .cLeD fs ft, .cNgtD fs ft]) ∨
      (r = fs ∧ i ∈
        [Instr.absS fd fs, .movS fd fs, .negS fd fs, .cvtDS fd fs, .cvtWS fd fs, .cvtDW fd fs, .cvtSW fd fs]) ∨
      (r.toNat / 2 = fs.toNat / 2 ∧ i ∈ [Instr.absD fd fs, .movD fd fs, .negD fd fs, .cvtSD fd fs, .cvtWD fd fs]) ∨
      (r = ft ∧ i ∈ [Instr.swc1 ft fs imm, .mfc1 fs ft])) ∧
  (∀ i : Instr, isBranch i = true ↔ ∃ (rd rs rt : Reg) (imm : BitVec 16) (t : BitVec 26), i ∈
    [Instr.j t, .jal t, .jr rs, .jalr rs rd, .beq rs rt imm, .bne rs rt imm, .blez rs imm, .bgtz rs imm,
        .bltz rs imm, .bgez rs imm, .bltzal rs imm, .bgezal rs imm, .bc0f imm, .bc0t imm, .bc1f imm,
        .bc1t imm, .bc2f imm, .bc2t imm, .bc3f imm, .bc3t imm]) ∧
  ∀ (s : State) (i : Instr),
    (s.cfg.loadDelay = true → ∀ r : Reg, r ≠ 0 → s.loadPending = .gpr r → r ∈ gprSources i →
      s.hazard i = some .loadUseHazard) ∧
    (s.cfg.loadDelay = true → ∀ r : Reg, s.loadPending = .fpr r → r ∈ fprSources i →
      s.hazard i = some .loadUseHazard) ∧
    (s.cfg.hiloHazard = true → s.loadPending = .none → s.hiloAge < 2 → ∀ rs rt : Reg,
      i ∈ [Instr.mult rs rt, .multu rs rt, .div rs rt, .divu rs rt, .mthi rs, .mtlo rs] →
      s.hazard i = some .hiLoHazard) ∧
    (s.cfg.loadDelay = true → s.fccFresh = true → ∀ offset, i = .bc1t offset ∨ i = .bc1f offset →
      s.hazard i = some .fccHazard) ∧
    (s.cfg.delaySlots = true → s.inDelay = true → isBranch i = true →
      (s.cfg.loadDelay = true →
        (∀ r : Reg, r ≠ 0 → s.loadPending = .gpr r → r ∉ gprSources i) ∧
        (∀ r : Reg, s.loadPending = .fpr r → r ∉ fprSources i) ∧
        (s.fccFresh = true → ∀ offset, i ≠ .bc1t offset ∧ i ≠ .bc1f offset)) →
      s.hazard i = some .branchInDelaySlot) ∧
    (s.cfg.loadDelay = false → s.cfg.hiloHazard = false → s.cfg.delaySlots = false → s.hazard i = none) ∧
    (s.loadPending = .none → 2 ≤ s.hiloAge → s.fccFresh = false → s.inDelay = false → s.hazard i = none)

/-- A user-mode step without coprocessor 0 leaves the system registers and the translation buffer as they
were, unless it takes an exception, which enters kernel mode with interrupts off at one of the four vectors
(rules R381, R382, R400). -/
def Obligations.UserModeProtected : Prop :=
  ∀ s t : State, s.cfg.trapModel = .mips1 → s.status.getLsbD 1 = true → s.status.getLsbD 28 = false →
    step s = .next t → t.tlb = s.tlb ∧ t.index = s.index ∧ t.entryLo = s.entryLo ∧ t.prid = s.prid ∧
      ((t.status = s.status ∧ t.cause = s.cause ∧ t.epc = s.epc ∧ t.badVAddr = s.badVAddr ∧
          t.context = s.context ∧ t.entryHi = s.entryHi) ∨
        (t.status.extractLsb' 0 2 = 0 ∧ t.status.extractLsb' 6 26 = s.status.extractLsb' 6 26 ∧
          t.gpr = s.gpr ∧ t.fpr = s.fpr ∧ t.hi = s.hi ∧ t.lo = s.lo ∧ t.mem = s.mem ∧
          t.pc ∈ [0x80000000, 0x80000080, 0xBFC00100, 0xBFC00180]))

/-! ## Reset and the invariant -/

/-- The state after reset holds what a reset sets, and a launch state what a launch sets (rules R45, R420, R421). -/
def Obligations.ResetAndLaunch : Prop :=
  State.reset.isReset ∧
  ∀ (c : Config) (entry : Word) (image : Memory), entry.toNat % 4 = 0 →
    (State.launch c entry image).isLaunch entry ∧ (State.launch c entry image).mem = image

/-- The state after reset has the invariant. The values of notes/assumptions/3.md and 4.md are the model's (rules
R40, R41, R45). -/
def Obligations.ResetHasInvariant : Prop := State.reset.Inv

/-- Every step keeps the invariant: register 0 holds 0, memory and `dirty` stay in canonical form, reserved
bits stay 0, Random stays in range, and a machine with handlers goes on running (rules R21, R37, R38, R40,
R41, R42, R380). -/
def Obligations.StepKeepsInvariant : Prop := ∀ s t : State, s.Inv → step s = .next t → t.Inv
end

