-- ==== Sys2Proof/Laws/State.lean ====
section
/-! SUPPORT. One lemma per field per named update of the state, so that no proof unfolds an update; and the
same for the register, byte and mode reads built on the fields. -/

namespace Sys2Proof.Machine

variable (s : State)

/-! ### `setX` -/

@[simp] theorem setX_cfg (r : Reg) (v : Word) : (s.setX r v).cfg = s.cfg := by unfold State.setX; split <;> rfl
@[simp] theorem setX_hi (r : Reg) (v : Word) : (s.setX r v).hi = s.hi := by unfold State.setX; split <;> rfl
@[simp] theorem setX_lo (r : Reg) (v : Word) : (s.setX r v).lo = s.lo := by unfold State.setX; split <;> rfl
@[simp] theorem setX_pc (r : Reg) (v : Word) : (s.setX r v).pc = s.pc := by unfold State.setX; split <;> rfl
@[simp] theorem setX_npc (r : Reg) (v : Word) : (s.setX r v).npc = s.npc := by unfold State.setX; split <;> rfl
@[simp] theorem setX_inDelay (r : Reg) (v : Word) : (s.setX r v).inDelay = s.inDelay := by unfold State.setX; split <;> rfl
@[simp] theorem setX_fpr (r : Reg) (v : Word) : (s.setX r v).fpr = s.fpr := by unfold State.setX; split <;> rfl
@[simp] theorem setX_fcc (r : Reg) (v : Word) : (s.setX r v).fcc = s.fcc := by unfold State.setX; split <;> rfl
@[simp] theorem setX_rm (r : Reg) (v : Word) : (s.setX r v).rm = s.rm := by unfold State.setX; split <;> rfl
@[simp] theorem setX_fcr0 (r : Reg) (v : Word) : (s.setX r v).fcr0 = s.fcr0 := by unfold State.setX; split <;> rfl
@[simp] theorem setX_cpr2 (r : Reg) (v : Word) : (s.setX r v).cpr2 = s.cpr2 := by unfold State.setX; split <;> rfl
@[simp] theorem setX_ccr2 (r : Reg) (v : Word) : (s.setX r v).ccr2 = s.ccr2 := by unfold State.setX; split <;> rfl
@[simp] theorem setX_cpr3 (r : Reg) (v : Word) : (s.setX r v).cpr3 = s.cpr3 := by unfold State.setX; split <;> rfl
@[simp] theorem setX_ccr3 (r : Reg) (v : Word) : (s.setX r v).ccr3 = s.ccr3 := by unfold State.setX; split <;> rfl
@[simp] theorem setX_index (r : Reg) (v : Word) : (s.setX r v).index = s.index := by unfold State.setX; split <;> rfl
@[simp] theorem setX_random (r : Reg) (v : Word) : (s.setX r v).random = s.random := by unfold State.setX; split <;> rfl
@[simp] theorem setX_entryLo (r : Reg) (v : Word) : (s.setX r v).entryLo = s.entryLo := by unfold State.setX; split <;> rfl
@[simp] theorem setX_context (r : Reg) (v : Word) : (s.setX r v).context = s.context := by unfold State.setX; split <;> rfl
@[simp] theorem setX_badVAddr (r : Reg) (v : Word) : (s.setX r v).badVAddr = s.badVAddr := by unfold State.setX; split <;> rfl
@[simp] theorem setX_entryHi (r : Reg) (v : Word) : (s.setX r v).entryHi = s.entryHi := by unfold State.setX; split <;> rfl
@[simp] theorem setX_status (r : Reg) (v : Word) : (s.setX r v).status = s.status := by unfold State.setX; split <;> rfl
@[simp] theorem setX_cause (r : Reg) (v : Word) : (s.setX r v).cause = s.cause := by unfold State.setX; split <;> rfl
@[simp] theorem setX_epc (r : Reg) (v : Word) : (s.setX r v).epc = s.epc := by unfold State.setX; split <;> rfl
@[simp] theorem setX_prid (r : Reg) (v : Word) : (s.setX r v).prid = s.prid := by unfold State.setX; split <;> rfl
@[simp] theorem setX_tlb (r : Reg) (v : Word) : (s.setX r v).tlb = s.tlb := by unfold State.setX; split <;> rfl
@[simp] theorem setX_mem (r : Reg) (v : Word) : (s.setX r v).mem = s.mem := by unfold State.setX; split <;> rfl
@[simp] theorem setX_loadPending (r : Reg) (v : Word) : (s.setX r v).loadPending = s.loadPending := by unfold State.setX; split <;> rfl
@[simp] theorem setX_fccFresh (r : Reg) (v : Word) : (s.setX r v).fccFresh = s.fccFresh := by unfold State.setX; split <;> rfl
@[simp] theorem setX_hiloAge (r : Reg) (v : Word) : (s.setX r v).hiloAge = s.hiloAge := by unfold State.setX; split <;> rfl
@[simp] theorem setX_dirty (r : Reg) (v : Word) : (s.setX r v).dirty = s.dirty := by unfold State.setX; split <;> rfl
@[simp] theorem setX_outcome (r : Reg) (v : Word) : (s.setX r v).outcome = s.outcome := by unfold State.setX; split <;> rfl
@[simp] theorem setX_intPins (r : Reg) (v : Word) : (s.setX r v).intPins = s.intPins := by unfold State.setX; split <;> rfl
@[simp] theorem setX_draws (r : Reg) (v : Word) : (s.setX r v).draws = s.draws := by unfold State.setX; split <;> rfl
@[simp] theorem setX_f (r : Reg) (v : Word) (q : Reg) : (s.setX r v).f q = s.f q := by simp [State.f]
@[simp] theorem setX_d (r : Reg) (v : Word) (q : Reg) : (s.setX r v).d q = s.d q := by simp [State.d, State.f]
@[simp] theorem setX_byteAt (r : Reg) (v : Word) (a : Nat) : (s.setX r v).byteAt a = s.byteAt a := by simp [State.byteAt]
@[simp] theorem setX_userMode (r : Reg) (v : Word) : (s.setX r v).userMode = s.userMode := by simp [State.userMode]
@[simp] theorem setX_bev (r : Reg) (v : Word) : (s.setX r v).bev = s.bev := by simp [State.bev]
@[simp] theorem setX_roundMode (r : Reg) (v : Word) : (s.setX r v).roundMode = s.roundMode := by simp [State.roundMode]
@[simp] theorem setX_fp (r : Reg) (v : Word) : (s.setX r v).fp = s.fp := by simp [State.fp]

/-! ### `setF` -/

@[simp] theorem setF_cfg (r : Reg) (v : Word) : (s.setF r v).cfg = s.cfg := rfl
@[simp] theorem setF_gpr (r : Reg) (v : Word) : (s.setF r v).gpr = s.gpr := rfl
@[simp] theorem setF_hi (r : Reg) (v : Word) : (s.setF r v).hi = s.hi := rfl
@[simp] theorem setF_lo (r : Reg) (v : Word) : (s.setF r v).lo = s.lo := rfl
@[simp] theorem setF_pc (r : Reg) (v : Word) : (s.setF r v).pc = s.pc := rfl
@[simp] theorem setF_npc (r : Reg) (v : Word) : (s.setF r v).npc = s.npc := rfl
@[simp] theorem setF_inDelay (r : Reg) (v : Word) : (s.setF r v).inDelay = s.inDelay := rfl
@[simp] theorem setF_fcc (r : Reg) (v : Word) : (s.setF r v).fcc = s.fcc := rfl
@[simp] theorem setF_rm (r : Reg) (v : Word) : (s.setF r v).rm = s.rm := rfl
@[simp] theorem setF_fcr0 (r : Reg) (v : Word) : (s.setF r v).fcr0 = s.fcr0 := rfl
@[simp] theorem setF_cpr2 (r : Reg) (v : Word) : (s.setF r v).cpr2 = s.cpr2 := rfl
@[simp] theorem setF_ccr2 (r : Reg) (v : Word) : (s.setF r v).ccr2 = s.ccr2 := rfl
@[simp] theorem setF_cpr3 (r : Reg) (v : Word) : (s.setF r v).cpr3 = s.cpr3 := rfl
@[simp] theorem setF_ccr3 (r : Reg) (v : Word) : (s.setF r v).ccr3 = s.ccr3 := rfl
@[simp] theorem setF_index (r : Reg) (v : Word) : (s.setF r v).index = s.index := rfl
@[simp] theorem setF_random (r : Reg) (v : Word) : (s.setF r v).random = s.random := rfl
@[simp] theorem setF_entryLo (r : Reg) (v : Word) : (s.setF r v).entryLo = s.entryLo := rfl
@[simp] theorem setF_context (r : Reg) (v : Word) : (s.setF r v).context = s.context := rfl
@[simp] theorem setF_badVAddr (r : Reg) (v : Word) : (s.setF r v).badVAddr = s.badVAddr := rfl
@[simp] theorem setF_entryHi (r : Reg) (v : Word) : (s.setF r v).entryHi = s.entryHi := rfl
@[simp] theorem setF_status (r : Reg) (v : Word) : (s.setF r v).status = s.status := rfl
@[simp] theorem setF_cause (r : Reg) (v : Word) : (s.setF r v).cause = s.cause := rfl
@[simp] theorem setF_epc (r : Reg) (v : Word) : (s.setF r v).epc = s.epc := rfl
@[simp] theorem setF_prid (r : Reg) (v : Word) : (s.setF r v).prid = s.prid := rfl
@[simp] theorem setF_tlb (r : Reg) (v : Word) : (s.setF r v).tlb = s.tlb := rfl
@[simp] theorem setF_mem (r : Reg) (v : Word) : (s.setF r v).mem = s.mem := rfl
@[simp] theorem setF_loadPending (r : Reg) (v : Word) : (s.setF r v).loadPending = s.loadPending := rfl
@[simp] theorem setF_fccFresh (r : Reg) (v : Word) : (s.setF r v).fccFresh = s.fccFresh := rfl
@[simp] theorem setF_hiloAge (r : Reg) (v : Word) : (s.setF r v).hiloAge = s.hiloAge := rfl
@[simp] theorem setF_dirty (r : Reg) (v : Word) : (s.setF r v).dirty = s.dirty := rfl
@[simp] theorem setF_outcome (r : Reg) (v : Word) : (s.setF r v).outcome = s.outcome := rfl
@[simp] theorem setF_intPins (r : Reg) (v : Word) : (s.setF r v).intPins = s.intPins := rfl
@[simp] theorem setF_draws (r : Reg) (v : Word) : (s.setF r v).draws = s.draws := rfl
@[simp] theorem setF_x (r : Reg) (v : Word) (q : Reg) : (s.setF r v).x q = s.x q := by simp [State.x]
@[simp] theorem setF_byteAt (r : Reg) (v : Word) (a : Nat) : (s.setF r v).byteAt a = s.byteAt a := by simp [State.byteAt]
@[simp] theorem setF_userMode (r : Reg) (v : Word) : (s.setF r v).userMode = s.userMode := by simp [State.userMode]
@[simp] theorem setF_bev (r : Reg) (v : Word) : (s.setF r v).bev = s.bev := by simp [State.bev]
@[simp] theorem setF_roundMode (r : Reg) (v : Word) : (s.setF r v).roundMode = s.roundMode := by simp [State.roundMode]
@[simp] theorem setF_fp (r : Reg) (v : Word) : (s.setF r v).fp = s.fp := by simp [State.fp]

/-! ### `setD` -/

@[simp] theorem setD_cfg (r : Reg) (v : DWord) : (s.setD r v).cfg = s.cfg := rfl
@[simp] theorem setD_gpr (r : Reg) (v : DWord) : (s.setD r v).gpr = s.gpr := rfl
@[simp] theorem setD_hi (r : Reg) (v : DWord) : (s.setD r v).hi = s.hi := rfl
@[simp] theorem setD_lo (r : Reg) (v : DWord) : (s.setD r v).lo = s.lo := rfl
@[simp] theorem setD_pc (r : Reg) (v : DWord) : (s.setD r v).pc = s.pc := rfl
@[simp] theorem setD_npc (r : Reg) (v : DWord) : (s.setD r v).npc = s.npc := rfl
@[simp] theorem setD_inDelay (r : Reg) (v : DWord) : (s.setD r v).inDelay = s.inDelay := rfl
@[simp] theorem setD_fcc (r : Reg) (v : DWord) : (s.setD r v).fcc = s.fcc := rfl
@[simp] theorem setD_rm (r : Reg) (v : DWord) : (s.setD r v).rm = s.rm := rfl
@[simp] theorem setD_fcr0 (r : Reg) (v : DWord) : (s.setD r v).fcr0 = s.fcr0 := rfl
@[simp] theorem setD_cpr2 (r : Reg) (v : DWord) : (s.setD r v).cpr2 = s.cpr2 := rfl
@[simp] theorem setD_ccr2 (r : Reg) (v : DWord) : (s.setD r v).ccr2 = s.ccr2 := rfl
@[simp] theorem setD_cpr3 (r : Reg) (v : DWord) : (s.setD r v).cpr3 = s.cpr3 := rfl
@[simp] theorem setD_ccr3 (r : Reg) (v : DWord) : (s.setD r v).ccr3 = s.ccr3 := rfl
@[simp] theorem setD_index (r : Reg) (v : DWord) : (s.setD r v).index = s.index := rfl
@[simp] theorem setD_random (r : Reg) (v : DWord) : (s.setD r v).random = s.random := rfl
@[simp] theorem setD_entryLo (r : Reg) (v : DWord) : (s.setD r v).entryLo = s.entryLo := rfl
@[simp] theorem setD_context (r : Reg) (v : DWord) : (s.setD r v).context = s.context := rfl
@[simp] theorem setD_badVAddr (r : Reg) (v : DWord) : (s.setD r v).badVAddr = s.badVAddr := rfl
@[simp] theorem setD_entryHi (r : Reg) (v : DWord) : (s.setD r v).entryHi = s.entryHi := rfl
@[simp] theorem setD_status (r : Reg) (v : DWord) : (s.setD r v).status = s.status := rfl
@[simp] theorem setD_cause (r : Reg) (v : DWord) : (s.setD r v).cause = s.cause := rfl
@[simp] theorem setD_epc (r : Reg) (v : DWord) : (s.setD r v).epc = s.epc := rfl
@[simp] theorem setD_prid (r : Reg) (v : DWord) : (s.setD r v).prid = s.prid := rfl
@[simp] theorem setD_tlb (r : Reg) (v : DWord) : (s.setD r v).tlb = s.tlb := rfl
@[simp] theorem setD_mem (r : Reg) (v : DWord) : (s.setD r v).mem = s.mem := rfl
@[simp] theorem setD_loadPending (r : Reg) (v : DWord) : (s.setD r v).loadPending = s.loadPending := rfl
@[simp] theorem setD_fccFresh (r : Reg) (v : DWord) : (s.setD r v).fccFresh = s.fccFresh := rfl
@[simp] theorem setD_hiloAge (r : Reg) (v : DWord) : (s.setD r v).hiloAge = s.hiloAge := rfl
@[simp] theorem setD_dirty (r : Reg) (v : DWord) : (s.setD r v).dirty = s.dirty := rfl
@[simp] theorem setD_outcome (r : Reg) (v : DWord) : (s.setD r v).outcome = s.outcome := rfl
@[simp] theorem setD_intPins (r : Reg) (v : DWord) : (s.setD r v).intPins = s.intPins := rfl
@[simp] theorem setD_draws (r : Reg) (v : DWord) : (s.setD r v).draws = s.draws := rfl
@[simp] theorem setD_x (r : Reg) (v : DWord) (q : Reg) : (s.setD r v).x q = s.x q := by simp [State.x]
@[simp] theorem setD_byteAt (r : Reg) (v : DWord) (a : Nat) : (s.setD r v).byteAt a = s.byteAt a := by simp [State.byteAt]
@[simp] theorem setD_userMode (r : Reg) (v : DWord) : (s.setD r v).userMode = s.userMode := by simp [State.userMode]
@[simp] theorem setD_bev (r : Reg) (v : DWord) : (s.setD r v).bev = s.bev := by simp [State.bev]
@[simp] theorem setD_roundMode (r : Reg) (v : DWord) : (s.setD r v).roundMode = s.roundMode := by simp [State.roundMode]
@[simp] theorem setD_fp (r : Reg) (v : DWord) : (s.setD r v).fp = s.fp := by simp [State.fp]

/-! ### `drawn` -/

@[simp] theorem drawn_cfg : (s.drawn).cfg = s.cfg := rfl
@[simp] theorem drawn_gpr : (s.drawn).gpr = s.gpr := rfl
@[simp] theorem drawn_hi : (s.drawn).hi = s.hi := rfl
@[simp] theorem drawn_lo : (s.drawn).lo = s.lo := rfl
@[simp] theorem drawn_pc : (s.drawn).pc = s.pc := rfl
@[simp] theorem drawn_npc : (s.drawn).npc = s.npc := rfl
@[simp] theorem drawn_inDelay : (s.drawn).inDelay = s.inDelay := rfl
@[simp] theorem drawn_fpr : (s.drawn).fpr = s.fpr := rfl
@[simp] theorem drawn_fcc : (s.drawn).fcc = s.fcc := rfl
@[simp] theorem drawn_rm : (s.drawn).rm = s.rm := rfl
@[simp] theorem drawn_fcr0 : (s.drawn).fcr0 = s.fcr0 := rfl
@[simp] theorem drawn_cpr2 : (s.drawn).cpr2 = s.cpr2 := rfl
@[simp] theorem drawn_ccr2 : (s.drawn).ccr2 = s.ccr2 := rfl
@[simp] theorem drawn_cpr3 : (s.drawn).cpr3 = s.cpr3 := rfl
@[simp] theorem drawn_ccr3 : (s.drawn).ccr3 = s.ccr3 := rfl
@[simp] theorem drawn_index : (s.drawn).index = s.index := rfl
@[simp] theorem drawn_random : (s.drawn).random = s.random := rfl
@[simp] theorem drawn_entryLo : (s.drawn).entryLo = s.entryLo := rfl
@[simp] theorem drawn_context : (s.drawn).context = s.context := rfl
@[simp] theorem drawn_badVAddr : (s.drawn).badVAddr = s.badVAddr := rfl
@[simp] theorem drawn_entryHi : (s.drawn).entryHi = s.entryHi := rfl
@[simp] theorem drawn_status : (s.drawn).status = s.status := rfl
@[simp] theorem drawn_cause : (s.drawn).cause = s.cause := rfl
@[simp] theorem drawn_epc : (s.drawn).epc = s.epc := rfl
@[simp] theorem drawn_prid : (s.drawn).prid = s.prid := rfl
@[simp] theorem drawn_tlb : (s.drawn).tlb = s.tlb := rfl
@[simp] theorem drawn_mem : (s.drawn).mem = s.mem := rfl
@[simp] theorem drawn_loadPending : (s.drawn).loadPending = s.loadPending := rfl
@[simp] theorem drawn_fccFresh : (s.drawn).fccFresh = s.fccFresh := rfl
@[simp] theorem drawn_hiloAge : (s.drawn).hiloAge = s.hiloAge := rfl
@[simp] theorem drawn_dirty : (s.drawn).dirty = s.dirty := rfl
@[simp] theorem drawn_outcome : (s.drawn).outcome = s.outcome := rfl
@[simp] theorem drawn_intPins : (s.drawn).intPins = s.intPins := rfl
@[simp] theorem drawn_x (q : Reg) : (s.drawn).x q = s.x q := by simp [State.x]
@[simp] theorem drawn_f (q : Reg) : (s.drawn).f q = s.f q := by simp [State.f]
@[simp] theorem drawn_d (q : Reg) : (s.drawn).d q = s.d q := by simp [State.d, State.f]
@[simp] theorem drawn_byteAt (a : Nat) : (s.drawn).byteAt a = s.byteAt a := by simp [State.byteAt]
@[simp] theorem drawn_userMode : (s.drawn).userMode = s.userMode := by simp [State.userMode]
@[simp] theorem drawn_bev : (s.drawn).bev = s.bev := by simp [State.bev]
@[simp] theorem drawn_roundMode : (s.drawn).roundMode = s.roundMode := by simp [State.roundMode]
@[simp] theorem drawn_fp : (s.drawn).fp = s.fp := by simp [State.fp]

/-! ### `bookkeep` -/

@[simp] theorem bookkeep_cfg (c : Completion) : (s.bookkeep c).cfg = s.cfg := rfl
@[simp] theorem bookkeep_gpr (c : Completion) : (s.bookkeep c).gpr = s.gpr := rfl
@[simp] theorem bookkeep_hi (c : Completion) : (s.bookkeep c).hi = s.hi := rfl
@[simp] theorem bookkeep_lo (c : Completion) : (s.bookkeep c).lo = s.lo := rfl
@[simp] theorem bookkeep_pc (c : Completion) : (s.bookkeep c).pc = s.pc := rfl
@[simp] theorem bookkeep_npc (c : Completion) : (s.bookkeep c).npc = s.npc := rfl
@[simp] theorem bookkeep_inDelay (c : Completion) : (s.bookkeep c).inDelay = s.inDelay := rfl
@[simp] theorem bookkeep_fpr (c : Completion) : (s.bookkeep c).fpr = s.fpr := rfl
@[simp] theorem bookkeep_fcc (c : Completion) : (s.bookkeep c).fcc = s.fcc := rfl
@[simp] theorem bookkeep_rm (c : Completion) : (s.bookkeep c).rm = s.rm := rfl
@[simp] theorem bookkeep_fcr0 (c : Completion) : (s.bookkeep c).fcr0 = s.fcr0 := rfl
@[simp] theorem bookkeep_cpr2 (c : Completion) : (s.bookkeep c).cpr2 = s.cpr2 := rfl
@[simp] theorem bookkeep_ccr2 (c : Completion) : (s.bookkeep c).ccr2 = s.ccr2 := rfl
@[simp] theorem bookkeep_cpr3 (c : Completion) : (s.bookkeep c).cpr3 = s.cpr3 := rfl
@[simp] theorem bookkeep_ccr3 (c : Completion) : (s.bookkeep c).ccr3 = s.ccr3 := rfl
@[simp] theorem bookkeep_index (c : Completion) : (s.bookkeep c).index = s.index := rfl
@[simp] theorem bookkeep_random (c : Completion) : (s.bookkeep c).random = s.random := rfl
@[simp] theorem bookkeep_entryLo (c : Completion) : (s.bookkeep c).entryLo = s.entryLo := rfl
@[simp] theorem bookkeep_context (c : Completion) : (s.bookkeep c).context = s.context := rfl
@[simp] theorem bookkeep_badVAddr (c : Completion) : (s.bookkeep c).badVAddr = s.badVAddr := rfl
@[simp] theorem bookkeep_entryHi (c : Completion) : (s.bookkeep c).entryHi = s.entryHi := rfl
@[simp] theorem bookkeep_status (c : Completion) : (s.bookkeep c).status = s.status := rfl
@[simp] theorem bookkeep_cause (c : Completion) : (s.bookkeep c).cause = s.cause := rfl
@[simp] theorem bookkeep_epc (c : Completion) : (s.bookkeep c).epc = s.epc := rfl
@[simp] theorem bookkeep_prid (c : Completion) : (s.bookkeep c).prid = s.prid := rfl
@[simp] theorem bookkeep_tlb (c : Completion) : (s.bookkeep c).tlb = s.tlb := rfl
@[simp] theorem bookkeep_mem (c : Completion) : (s.bookkeep c).mem = s.mem := rfl
@[simp] theorem bookkeep_dirty (c : Completion) : (s.bookkeep c).dirty = s.dirty := rfl
@[simp] theorem bookkeep_outcome (c : Completion) : (s.bookkeep c).outcome = s.outcome := rfl
@[simp] theorem bookkeep_intPins (c : Completion) : (s.bookkeep c).intPins = s.intPins := rfl
@[simp] theorem bookkeep_draws (c : Completion) : (s.bookkeep c).draws = s.draws := rfl
@[simp] theorem bookkeep_x (c : Completion) (q : Reg) : (s.bookkeep c).x q = s.x q := by simp [State.x]
@[simp] theorem bookkeep_f (c : Completion) (q : Reg) : (s.bookkeep c).f q = s.f q := by simp [State.f]
@[simp] theorem bookkeep_d (c : Completion) (q : Reg) : (s.bookkeep c).d q = s.d q := by simp [State.d, State.f]
@[simp] theorem bookkeep_byteAt (c : Completion) (a : Nat) : (s.bookkeep c).byteAt a = s.byteAt a := by simp [State.byteAt]
@[simp] theorem bookkeep_userMode (c : Completion) : (s.bookkeep c).userMode = s.userMode := by simp [State.userMode]
@[simp] theorem bookkeep_bev (c : Completion) : (s.bookkeep c).bev = s.bev := by simp [State.bev]
@[simp] theorem bookkeep_roundMode (c : Completion) : (s.bookkeep c).roundMode = s.roundMode := by simp [State.roundMode]
@[simp] theorem bookkeep_fp (c : Completion) : (s.bookkeep c).fp = s.fp := by simp [State.fp]

/-! ### `advance` -/

@[simp] theorem advance_cfg (c : Completion) : (s.advance c).cfg = s.cfg := by unfold State.advance; split <;> rfl
@[simp] theorem advance_gpr (c : Completion) : (s.advance c).gpr = s.gpr := by unfold State.advance; split <;> rfl
@[simp] theorem advance_hi (c : Completion) : (s.advance c).hi = s.hi := by unfold State.advance; split <;> rfl
@[simp] theorem advance_lo (c : Completion) : (s.advance c).lo = s.lo := by unfold State.advance; split <;> rfl
@[simp] theorem advance_fpr (c : Completion) : (s.advance c).fpr = s.fpr := by unfold State.advance; split <;> rfl
@[simp] theorem advance_fcc (c : Completion) : (s.advance c).fcc = s.fcc := by unfold State.advance; split <;> rfl
@[simp] theorem advance_rm (c : Completion) : (s.advance c).rm = s.rm := by unfold State.advance; split <;> rfl
@[simp] theorem advance_fcr0 (c : Completion) : (s.advance c).fcr0 = s.fcr0 := by unfold State.advance; split <;> rfl
@[simp] theorem advance_cpr2 (c : Completion) : (s.advance c).cpr2 = s.cpr2 := by unfold State.advance; split <;> rfl
@[simp] theorem advance_ccr2 (c : Completion) : (s.advance c).ccr2 = s.ccr2 := by unfold State.advance; split <;> rfl
@[simp] theorem advance_cpr3 (c : Completion) : (s.advance c).cpr3 = s.cpr3 := by unfold State.advance; split <;> rfl
@[simp] theorem advance_ccr3 (c : Completion) : (s.advance c).ccr3 = s.ccr3 := by unfold State.advance; split <;> rfl
@[simp] theorem advance_index (c : Completion) : (s.advance c).index = s.index := by unfold State.advance; split <;> rfl
@[simp] theorem advance_random (c : Completion) : (s.advance c).random = s.random := by unfold State.advance; split <;> rfl
@[simp] theorem advance_entryLo (c : Completion) : (s.advance c).entryLo = s.entryLo := by unfold State.advance; split <;> rfl
@[simp] theorem advance_context (c : Completion) : (s.advance c).context = s.context := by unfold State.advance; split <;> rfl
@[simp] theorem advance_badVAddr (c : Completion) : (s.advance c).badVAddr = s.badVAddr := by unfold State.advance; split <;> rfl
@[simp] theorem advance_entryHi (c : Completion) : (s.advance c).entryHi = s.entryHi := by unfold State.advance; split <;> rfl
@[simp] theorem advance_status (c : Completion) : (s.advance c).status = s.status := by unfold State.advance; split <;> rfl
@[simp] theorem advance_cause (c : Completion) : (s.advance c).cause = s.cause := by unfold State.advance; split <;> rfl
@[simp] theorem advance_epc (c : Completion) : (s.advance c).epc = s.epc := by unfold State.advance; split <;> rfl
@[simp] theorem advance_prid (c : Completion) : (s.advance c).prid = s.prid := by unfold State.advance; split <;> rfl
@[simp] theorem advance_tlb (c : Completion) : (s.advance c).tlb = s.tlb := by unfold State.advance; split <;> rfl
@[simp] theorem advance_mem (c : Completion) : (s.advance c).mem = s.mem := by unfold State.advance; split <;> rfl
@[simp] theorem advance_loadPending (c : Completion) : (s.advance c).loadPending = s.loadPending := by unfold State.advance; split <;> rfl
@[simp] theorem advance_fccFresh (c : Completion) : (s.advance c).fccFresh = s.fccFresh := by unfold State.advance; split <;> rfl
@[simp] theorem advance_hiloAge (c : Completion) : (s.advance c).hiloAge = s.hiloAge := by unfold State.advance; split <;> rfl
@[simp] theorem advance_dirty (c : Completion) : (s.advance c).dirty = s.dirty := by unfold State.advance; split <;> rfl
@[simp] theorem advance_outcome (c : Completion) : (s.advance c).outcome = s.outcome := by unfold State.advance; split <;> rfl
@[simp] theorem advance_intPins (c : Completion) : (s.advance c).intPins = s.intPins := by unfold State.advance; split <;> rfl
@[simp] theorem advance_draws (c : Completion) : (s.advance c).draws = s.draws := by unfold State.advance; split <;> rfl
@[simp] theorem advance_x (c : Completion) (q : Reg) : (s.advance c).x q = s.x q := by simp [State.x]
@[simp] theorem advance_f (c : Completion) (q : Reg) : (s.advance c).f q = s.f q := by simp [State.f]
@[simp] theorem advance_d (c : Completion) (q : Reg) : (s.advance c).d q = s.d q := by simp [State.d, State.f]
@[simp] theorem advance_byteAt (c : Completion) (a : Nat) : (s.advance c).byteAt a = s.byteAt a := by simp [State.byteAt]
@[simp] theorem advance_userMode (c : Completion) : (s.advance c).userMode = s.userMode := by simp [State.userMode]
@[simp] theorem advance_bev (c : Completion) : (s.advance c).bev = s.bev := by simp [State.bev]
@[simp] theorem advance_roundMode (c : Completion) : (s.advance c).roundMode = s.roundMode := by simp [State.roundMode]
@[simp] theorem advance_fp (c : Completion) : (s.advance c).fp = s.fp := by simp [State.fp]

/-! ### `exceptionReturn` -/

@[simp] theorem exceptionReturn_cfg : (s.exceptionReturn).cfg = s.cfg := rfl
@[simp] theorem exceptionReturn_gpr : (s.exceptionReturn).gpr = s.gpr := rfl
@[simp] theorem exceptionReturn_hi : (s.exceptionReturn).hi = s.hi := rfl
@[simp] theorem exceptionReturn_lo : (s.exceptionReturn).lo = s.lo := rfl
@[simp] theorem exceptionReturn_pc : (s.exceptionReturn).pc = s.pc := rfl
@[simp] theorem exceptionReturn_npc : (s.exceptionReturn).npc = s.npc := rfl
@[simp] theorem exceptionReturn_inDelay : (s.exceptionReturn).inDelay = s.inDelay := rfl
@[simp] theorem exceptionReturn_fpr : (s.exceptionReturn).fpr = s.fpr := rfl
@[simp] theorem exceptionReturn_fcc : (s.exceptionReturn).fcc = s.fcc := rfl
@[simp] theorem exceptionReturn_rm : (s.exceptionReturn).rm = s.rm := rfl
@[simp] theorem exceptionReturn_fcr0 : (s.exceptionReturn).fcr0 = s.fcr0 := rfl
@[simp] theorem exceptionReturn_cpr2 : (s.exceptionReturn).cpr2 = s.cpr2 := rfl
@[simp] theorem exceptionReturn_ccr2 : (s.exceptionReturn).ccr2 = s.ccr2 := rfl
@[simp] theorem exceptionReturn_cpr3 : (s.exceptionReturn).cpr3 = s.cpr3 := rfl
@[simp] theorem exceptionReturn_ccr3 : (s.exceptionReturn).ccr3 = s.ccr3 := rfl
@[simp] theorem exceptionReturn_index : (s.exceptionReturn).index = s.index := rfl
@[simp] theorem exceptionReturn_random : (s.exceptionReturn).random = s.random := rfl
@[simp] theorem exceptionReturn_entryLo : (s.exceptionReturn).entryLo = s.entryLo := rfl
@[simp] theorem exceptionReturn_context : (s.exceptionReturn).context = s.context := rfl
@[simp] theorem exceptionReturn_badVAddr : (s.exceptionReturn).badVAddr = s.badVAddr := rfl
@[simp] theorem exceptionReturn_entryHi : (s.exceptionReturn).entryHi = s.entryHi := rfl
@[simp] theorem exceptionReturn_cause : (s.exceptionReturn).cause = s.cause := rfl
@[simp] theorem exceptionReturn_epc : (s.exceptionReturn).epc = s.epc := rfl
@[simp] theorem exceptionReturn_prid : (s.exceptionReturn).prid = s.prid := rfl
@[simp] theorem exceptionReturn_tlb : (s.exceptionReturn).tlb = s.tlb := rfl
@[simp] theorem exceptionReturn_mem : (s.exceptionReturn).mem = s.mem := rfl
@[simp] theorem exceptionReturn_loadPending : (s.exceptionReturn).loadPending = s.loadPending := rfl
@[simp] theorem exceptionReturn_fccFresh : (s.exceptionReturn).fccFresh = s.fccFresh := rfl
@[simp] theorem exceptionReturn_hiloAge : (s.exceptionReturn).hiloAge = s.hiloAge := rfl
@[simp] theorem exceptionReturn_dirty : (s.exceptionReturn).dirty = s.dirty := rfl
@[simp] theorem exceptionReturn_outcome : (s.exceptionReturn).outcome = s.outcome := rfl
@[simp] theorem exceptionReturn_intPins : (s.exceptionReturn).intPins = s.intPins := rfl
@[simp] theorem exceptionReturn_draws : (s.exceptionReturn).draws = s.draws := rfl
@[simp] theorem exceptionReturn_x (q : Reg) : (s.exceptionReturn).x q = s.x q := by simp [State.x]
@[simp] theorem exceptionReturn_f (q : Reg) : (s.exceptionReturn).f q = s.f q := by simp [State.f]
@[simp] theorem exceptionReturn_d (q : Reg) : (s.exceptionReturn).d q = s.d q := by simp [State.d, State.f]
@[simp] theorem exceptionReturn_byteAt (a : Nat) : (s.exceptionReturn).byteAt a = s.byteAt a := by simp [State.byteAt]
@[simp] theorem exceptionReturn_roundMode : (s.exceptionReturn).roundMode = s.roundMode := by simp [State.roundMode]
@[simp] theorem exceptionReturn_fp : (s.exceptionReturn).fp = s.fp := by simp [State.fp]

/-! ### `writeCells` -/

@[simp] theorem writeCells_cfg (l : List Host.Cell) : (s.writeCells l).cfg = s.cfg := rfl
@[simp] theorem writeCells_gpr (l : List Host.Cell) : (s.writeCells l).gpr = s.gpr := rfl
@[simp] theorem writeCells_hi (l : List Host.Cell) : (s.writeCells l).hi = s.hi := rfl
@[simp] theorem writeCells_lo (l : List Host.Cell) : (s.writeCells l).lo = s.lo := rfl
@[simp] theorem writeCells_pc (l : List Host.Cell) : (s.writeCells l).pc = s.pc := rfl
@[simp] theorem writeCells_npc (l : List Host.Cell) : (s.writeCells l).npc = s.npc := rfl
@[simp] theorem writeCells_inDelay (l : List Host.Cell) : (s.writeCells l).inDelay = s.inDelay := rfl
@[simp] theorem writeCells_fpr (l : List Host.Cell) : (s.writeCells l).fpr = s.fpr := rfl
@[simp] theorem writeCells_fcc (l : List Host.Cell) : (s.writeCells l).fcc = s.fcc := rfl
@[simp] theorem writeCells_rm (l : List Host.Cell) : (s.writeCells l).rm = s.rm := rfl
@[simp] theorem writeCells_fcr0 (l : List Host.Cell) : (s.writeCells l).fcr0 = s.fcr0 := rfl
@[simp] theorem writeCells_cpr2 (l : List Host.Cell) : (s.writeCells l).cpr2 = s.cpr2 := rfl
@[simp] theorem writeCells_ccr2 (l : List Host.Cell) : (s.writeCells l).ccr2 = s.ccr2 := rfl
@[simp] theorem writeCells_cpr3 (l : List Host.Cell) : (s.writeCells l).cpr3 = s.cpr3 := rfl
@[simp] theorem writeCells_ccr3 (l : List Host.Cell) : (s.writeCells l).ccr3 = s.ccr3 := rfl
@[simp] theorem writeCells_index (l : List Host.Cell) : (s.writeCells l).index = s.index := rfl
@[simp] theorem writeCells_random (l : List Host.Cell) : (s.writeCells l).random = s.random := rfl
@[simp] theorem writeCells_entryLo (l : List Host.Cell) : (s.writeCells l).entryLo = s.entryLo := rfl
@[simp] theorem writeCells_context (l : List Host.Cell) : (s.writeCells l).context = s.context := rfl
@[simp] theorem writeCells_badVAddr (l : List Host.Cell) : (s.writeCells l).badVAddr = s.badVAddr := rfl
@[simp] theorem writeCells_entryHi (l : List Host.Cell) : (s.writeCells l).entryHi = s.entryHi := rfl
@[simp] theorem writeCells_status (l : List Host.Cell) : (s.writeCells l).status = s.status := rfl
@[simp] theorem writeCells_cause (l : List Host.Cell) : (s.writeCells l).cause = s.cause := rfl
@[simp] theorem writeCells_epc (l : List Host.Cell) : (s.writeCells l).epc = s.epc := rfl
@[simp] theorem writeCells_prid (l : List Host.Cell) : (s.writeCells l).prid = s.prid := rfl
@[simp] theorem writeCells_tlb (l : List Host.Cell) : (s.writeCells l).tlb = s.tlb := rfl
@[simp] theorem writeCells_loadPending (l : List Host.Cell) : (s.writeCells l).loadPending = s.loadPending := rfl
@[simp] theorem writeCells_fccFresh (l : List Host.Cell) : (s.writeCells l).fccFresh = s.fccFresh := rfl
@[simp] theorem writeCells_hiloAge (l : List Host.Cell) : (s.writeCells l).hiloAge = s.hiloAge := rfl
@[simp] theorem writeCells_outcome (l : List Host.Cell) : (s.writeCells l).outcome = s.outcome := rfl
@[simp] theorem writeCells_intPins (l : List Host.Cell) : (s.writeCells l).intPins = s.intPins := rfl
@[simp] theorem writeCells_draws (l : List Host.Cell) : (s.writeCells l).draws = s.draws := rfl
@[simp] theorem writeCells_x (l : List Host.Cell) (q : Reg) : (s.writeCells l).x q = s.x q := by simp [State.x]
@[simp] theorem writeCells_f (l : List Host.Cell) (q : Reg) : (s.writeCells l).f q = s.f q := by simp [State.f]
@[simp] theorem writeCells_d (l : List Host.Cell) (q : Reg) : (s.writeCells l).d q = s.d q := by simp [State.d, State.f]
@[simp] theorem writeCells_userMode (l : List Host.Cell) : (s.writeCells l).userMode = s.userMode := by simp [State.userMode]
@[simp] theorem writeCells_bev (l : List Host.Cell) : (s.writeCells l).bev = s.bev := by simp [State.bev]
@[simp] theorem writeCells_roundMode (l : List Host.Cell) : (s.writeCells l).roundMode = s.roundMode := by simp [State.roundMode]
@[simp] theorem writeCells_fp (l : List Host.Cell) : (s.writeCells l).fp = s.fp := by simp [State.fp]

/-! ### `trapEntry` -/

@[simp] theorem trapEntry_cfg (e : Exc) : (s.trapEntry e).cfg = s.cfg := rfl
@[simp] theorem trapEntry_gpr (e : Exc) : (s.trapEntry e).gpr = s.gpr := rfl
@[simp] theorem trapEntry_hi (e : Exc) : (s.trapEntry e).hi = s.hi := rfl
@[simp] theorem trapEntry_lo (e : Exc) : (s.trapEntry e).lo = s.lo := rfl
@[simp] theorem trapEntry_fpr (e : Exc) : (s.trapEntry e).fpr = s.fpr := rfl
@[simp] theorem trapEntry_fcc (e : Exc) : (s.trapEntry e).fcc = s.fcc := rfl
@[simp] theorem trapEntry_rm (e : Exc) : (s.trapEntry e).rm = s.rm := rfl
@[simp] theorem trapEntry_fcr0 (e : Exc) : (s.trapEntry e).fcr0 = s.fcr0 := rfl
@[simp] theorem trapEntry_cpr2 (e : Exc) : (s.trapEntry e).cpr2 = s.cpr2 := rfl
@[simp] theorem trapEntry_ccr2 (e : Exc) : (s.trapEntry e).ccr2 = s.ccr2 := rfl
@[simp] theorem trapEntry_cpr3 (e : Exc) : (s.trapEntry e).cpr3 = s.cpr3 := rfl
@[simp] theorem trapEntry_ccr3 (e : Exc) : (s.trapEntry e).ccr3 = s.ccr3 := rfl
@[simp] theorem trapEntry_index (e : Exc) : (s.trapEntry e).index = s.index := rfl
@[simp] theorem trapEntry_random (e : Exc) : (s.trapEntry e).random = s.random := rfl
@[simp] theorem trapEntry_entryLo (e : Exc) : (s.trapEntry e).entryLo = s.entryLo := rfl
@[simp] theorem trapEntry_prid (e : Exc) : (s.trapEntry e).prid = s.prid := rfl
@[simp] theorem trapEntry_tlb (e : Exc) : (s.trapEntry e).tlb = s.tlb := rfl
@[simp] theorem trapEntry_mem (e : Exc) : (s.trapEntry e).mem = s.mem := rfl
@[simp] theorem trapEntry_fccFresh (e : Exc) : (s.trapEntry e).fccFresh = s.fccFresh := rfl
@[simp] theorem trapEntry_hiloAge (e : Exc) : (s.trapEntry e).hiloAge = s.hiloAge := rfl
@[simp] theorem trapEntry_dirty (e : Exc) : (s.trapEntry e).dirty = s.dirty := rfl
@[simp] theorem trapEntry_outcome (e : Exc) : (s.trapEntry e).outcome = s.outcome := rfl
@[simp] theorem trapEntry_intPins (e : Exc) : (s.trapEntry e).intPins = s.intPins := rfl
@[simp] theorem trapEntry_x (e : Exc) (q : Reg) : (s.trapEntry e).x q = s.x q := by simp [State.x]
@[simp] theorem trapEntry_f (e : Exc) (q : Reg) : (s.trapEntry e).f q = s.f q := by simp [State.f]
@[simp] theorem trapEntry_d (e : Exc) (q : Reg) : (s.trapEntry e).d q = s.d q := by simp [State.d, State.f]
@[simp] theorem trapEntry_byteAt (e : Exc) (a : Nat) : (s.trapEntry e).byteAt a = s.byteAt a := by simp [State.byteAt]
@[simp] theorem trapEntry_roundMode (e : Exc) : (s.trapEntry e).roundMode = s.roundMode := by simp [State.roundMode]
@[simp] theorem trapEntry_fp (e : Exc) : (s.trapEntry e).fp = s.fp := by simp [State.fp]

/-! ### `sampleInputs` -/

@[simp] theorem sampleInputs_cfg : (s.sampleInputs).cfg = s.cfg := by unfold State.sampleInputs; split <;> rfl
@[simp] theorem sampleInputs_gpr : (s.sampleInputs).gpr = s.gpr := by unfold State.sampleInputs; split <;> rfl
@[simp] theorem sampleInputs_hi : (s.sampleInputs).hi = s.hi := by unfold State.sampleInputs; split <;> rfl
@[simp] theorem sampleInputs_lo : (s.sampleInputs).lo = s.lo := by unfold State.sampleInputs; split <;> rfl
@[simp] theorem sampleInputs_pc : (s.sampleInputs).pc = s.pc := by unfold State.sampleInputs; split <;> rfl
@[simp] theorem sampleInputs_npc : (s.sampleInputs).npc = s.npc := by unfold State.sampleInputs; split <;> rfl
@[simp] theorem sampleInputs_inDelay : (s.sampleInputs).inDelay = s.inDelay := by unfold State.sampleInputs; split <;> rfl
@[simp] theorem sampleInputs_fpr : (s.sampleInputs).fpr = s.fpr := by unfold State.sampleInputs; split <;> rfl
@[simp] theorem sampleInputs_fcc : (s.sampleInputs).fcc = s.fcc := by unfold State.sampleInputs; split <;> rfl
@[simp] theorem sampleInputs_rm : (s.sampleInputs).rm = s.rm := by unfold State.sampleInputs; split <;> rfl
@[simp] theorem sampleInputs_fcr0 : (s.sampleInputs).fcr0 = s.fcr0 := by unfold State.sampleInputs; split <;> rfl
@[simp] theorem sampleInputs_cpr2 : (s.sampleInputs).cpr2 = s.cpr2 := by unfold State.sampleInputs; split <;> rfl
@[simp] theorem sampleInputs_ccr2 : (s.sampleInputs).ccr2 = s.ccr2 := by unfold State.sampleInputs; split <;> rfl
@[simp] theorem sampleInputs_cpr3 : (s.sampleInputs).cpr3 = s.cpr3 := by unfold State.sampleInputs; split <;> rfl
@[simp] theorem sampleInputs_ccr3 : (s.sampleInputs).ccr3 = s.ccr3 := by unfold State.sampleInputs; split <;> rfl
@[simp] theorem sampleInputs_index : (s.sampleInputs).index = s.index := by unfold State.sampleInputs; split <;> rfl
@[simp] theorem sampleInputs_entryLo : (s.sampleInputs).entryLo = s.entryLo := by unfold State.sampleInputs; split <;> rfl
@[simp] theorem sampleInputs_context : (s.sampleInputs).context = s.context := by unfold State.sampleInputs; split <;> rfl
@[simp] theorem sampleInputs_badVAddr : (s.sampleInputs).badVAddr = s.badVAddr := by unfold State.sampleInputs; split <;> rfl
@[simp] theorem sampleInputs_entryHi : (s.sampleInputs).entryHi = s.entryHi := by unfold State.sampleInputs; split <;> rfl
@[simp] theorem sampleInputs_status : (s.sampleInputs).status = s.status := by unfold State.sampleInputs; split <;> rfl
@[simp] theorem sampleInputs_cause : (s.sampleInputs).cause = s.cause := by unfold State.sampleInputs; split <;> rfl
@[simp] theorem sampleInputs_epc : (s.sampleInputs).epc = s.epc := by unfold State.sampleInputs; split <;> rfl
@[simp] theorem sampleInputs_prid : (s.sampleInputs).prid = s.prid := by unfold State.sampleInputs; split <;> rfl
@[simp] theorem sampleInputs_tlb : (s.sampleInputs).tlb = s.tlb := by unfold State.sampleInputs; split <;> rfl
@[simp] theorem sampleInputs_mem : (s.sampleInputs).mem = s.mem := by unfold State.sampleInputs; split <;> rfl
@[simp] theorem sampleInputs_loadPending : (s.sampleInputs).loadPending = s.loadPending := by unfold State.sampleInputs; split <;> rfl
@[simp] theorem sampleInputs_fccFresh : (s.sampleInputs).fccFresh = s.fccFresh := by unfold State.sampleInputs; split <;> rfl
@[simp] theorem sampleInputs_hiloAge : (s.sampleInputs).hiloAge = s.hiloAge := by unfold State.sampleInputs; split <;> rfl
@[simp] theorem sampleInputs_dirty : (s.sampleInputs).dirty = s.dirty := by unfold State.sampleInputs; split <;> rfl
@[simp] theorem sampleInputs_outcome : (s.sampleInputs).outcome = s.outcome := by unfold State.sampleInputs; split <;> rfl
@[simp] theorem sampleInputs_x (q : Reg) : (s.sampleInputs).x q = s.x q := by simp [State.x]
@[simp] theorem sampleInputs_f (q : Reg) : (s.sampleInputs).f q = s.f q := by simp [State.f]
@[simp] theorem sampleInputs_d (q : Reg) : (s.sampleInputs).d q = s.d q := by simp [State.d, State.f]
@[simp] theorem sampleInputs_byteAt (a : Nat) : (s.sampleInputs).byteAt a = s.byteAt a := by simp [State.byteAt]
@[simp] theorem sampleInputs_userMode : (s.sampleInputs).userMode = s.userMode := by simp [State.userMode]
@[simp] theorem sampleInputs_bev : (s.sampleInputs).bev = s.bev := by simp [State.bev]
@[simp] theorem sampleInputs_roundMode : (s.sampleInputs).roundMode = s.roundMode := by simp [State.roundMode]
@[simp] theorem sampleInputs_fp : (s.sampleInputs).fp = s.fp := by simp [State.fp]

/-! ### What the updates change -/

@[simp] theorem drawn_draws : s.drawn.draws = s.draws + 1 := rfl
@[simp] theorem exceptionReturn_status : s.exceptionReturn.status = statusPop s.status := rfl
@[simp] theorem writeCells_mem (l : List Host.Cell) : (s.writeCells l).mem = Memory.writeCells s.mem l := rfl
@[simp] theorem bookkeep_loadPending (c : Completion) :
    (s.bookkeep c).loadPending = if s.cfg.loadDelay then c.pending else s.loadPending := rfl
@[simp] theorem bookkeep_fccFresh (c : Completion) :
    (s.bookkeep c).fccFresh = if s.cfg.loadDelay then c.fccFresh else s.fccFresh := rfl
@[simp] theorem bookkeep_hiloAge (c : Completion) : (s.bookkeep c).hiloAge =
    if s.cfg.hiloHazard then (if c.readsHiLo then 0 else min 2 (s.hiloAge + 1)) else s.hiloAge := rfl
@[simp] theorem advance_pc (c : Completion) :
    (s.advance c).pc = if s.cfg.delaySlots then s.npc else c.target.getD (s.pc + 4) := by
  unfold State.advance; split <;> rfl
@[simp] theorem advance_npc (c : Completion) :
    (s.advance c).npc = if s.cfg.delaySlots then c.target.getD (s.npc + 4) else s.npc := by
  unfold State.advance; split <;> rfl
@[simp] theorem advance_inDelay (c : Completion) :
    (s.advance c).inDelay = if s.cfg.delaySlots then c.branches else s.inDelay := by
  unfold State.advance; split <;> rfl
@[simp] theorem trapEntry_epc (e : Exc) :
    (s.trapEntry e).epc = if s.cfg.delaySlots && s.inDelay then s.pc - 4 else s.pc := rfl
@[simp] theorem trapEntry_cause (e : Exc) : (s.trapEntry e).cause =
    causeEntry s.cause (s.cfg.delaySlots && s.inDelay) (e.ce s.draws) e.code := rfl
@[simp] theorem trapEntry_badVAddr (e : Exc) : (s.trapEntry e).badVAddr = e.badAddress.getD s.badVAddr := rfl
@[simp] theorem trapEntry_status (e : Exc) : (s.trapEntry e).status = statusPush s.status := rfl
@[simp] theorem trapEntry_pc (e : Exc) : (s.trapEntry e).pc = s.vector e := rfl
@[simp] theorem trapEntry_npc (e : Exc) :
    (s.trapEntry e).npc = if s.cfg.delaySlots then s.vector e + 4 else s.npc := rfl
@[simp] theorem trapEntry_inDelay (e : Exc) :
    (s.trapEntry e).inDelay = if s.cfg.delaySlots then false else s.inDelay := rfl
@[simp] theorem trapEntry_loadPending (e : Exc) : (s.trapEntry e).loadPending = .none := rfl
@[simp] theorem trapEntry_draws (e : Exc) : (s.trapEntry e).draws = s.draws + 1 := rfl

/-! ### The floating-point functions in force -/

theorem fp_ieee754 (h : s.cfg.fp = .ieee754) : s.fp = ieee754 := by rw [State.fp, h]
theorem fp_given {n : Nat} (h : s.cfg.fp = .given n) : s.fp = Config.givenFp n := by rw [State.fp, h]

end Sys2Proof.Machine
end

