-- ==== Sys2Proof/Laws/Registers.lean ====
section
/-! SUPPORT. Reading a register file after a write (rules R21, R30, R31). -/

namespace Sys2Proof.Machine

theorem regGet_regSet (v : Vector Word 32) (r q : Reg) (w : Word) :
    regGet (regSet v r w) q = if q = r then w else regGet v q := by
  simp only [regGet, regSet, Vector.getElem_set]
  by_cases h : q = r
  · simp [h]
  · have : r.toNat ≠ q.toNat := fun e => h (BitVec.eq_of_toNat_eq e.symm)
    simp [h, this]

@[simp] theorem x_zero (s : State) : s.x 0 = 0 := rfl

@[simp] theorem setX_zero (s : State) (v : Word) : s.setX 0 v = s := rfl

/-- Everything a write of a general register does to the reads (rule R21). -/
theorem x_setX (s : State) (r q : Reg) (v : Word) :
    (s.setX r v).x q = if q = r then (if r = 0 then 0 else v) else s.x q := by
  unfold State.setX State.x
  by_cases hr : r = 0 <;> by_cases hq : q = 0 <;> by_cases hqr : q = r <;>
    simp_all [regGet_regSet]

theorem x_setX_same (s : State) (r : Reg) (v : Word) (h : r ≠ 0) : (s.setX r v).x r = v := by
  rw [x_setX, if_pos rfl, if_neg h]

theorem x_setX_of_ne (s : State) (r q : Reg) (v : Word) (h : q ≠ r) : (s.setX r v).x q = s.x q := by
  simp [x_setX, h]

/-- A write of a general register keeps register 0 holding 0. -/
theorem setX_keeps_zero (s : State) (r : Reg) (v : Word) (h : regGet s.gpr 0 = 0) :
    regGet (s.setX r v).gpr 0 = 0 := by
  unfold State.setX
  split
  · exact h
  · rename_i hr
    have : (0 : Reg) ≠ r := fun e => hr e.symm
    rw [regGet_regSet, if_neg this, h]

theorem f_setF (s : State) (r q : Reg) (v : Word) : (s.setF r v).f q = if q = r then v else s.f q := by
  simp [State.f, State.setF, regGet_regSet]

theorem f_setD (s : State) (r q : Reg) (v : DWord) : (s.setD r v).f q =
    if q = r + 1 then v.extractLsb' 32 32 else if q = r then v.extractLsb' 0 32 else s.f q := by
  simp [State.setD, f_setF]

theorem reg_ne_succ : ∀ r : Reg, r ≠ r + 1 := by decide

/-- A double written and read back (rule R31). -/
theorem d_setD (s : State) (r : Reg) (v : DWord) : (s.setD r v).d r = v := by
  have h := reg_ne_succ r
  simp only [State.d, f_setD, if_pos, if_neg h]
  ext i hi
  simp only [BitVec.getElem_append, BitVec.getElem_extractLsb']
  split <;> (rw [← BitVec.getLsbD_eq_getElem]; congr 1; omega)

end Sys2Proof.Machine
end

