-- ==== Sys2Proof/Laws/Control.lean ====
section
/-! SUPPORT. What completing, raising, gating and stepping can do, each said once, and the frames of the
shared updates. -/

namespace Sys2Proof.Machine

/-! ## Results -/

@[simp] theorem mapNext_next (g : State → State) (s : State) : mapNext g (.next s) = .next (g s) := rfl
@[simp] theorem mapNext_fault (g : State → State) (r : Fault) : mapNext g (.fault r) = .fault r := rfl
@[simp] theorem mapNext_refused (g : State → State) (r : Refusal) : mapNext g (.refused r) = .refused r := rfl

theorem mapNext_eq_next {g : State → State} {r : Result} {t : State} (h : mapNext g r = .next t) :
    ∃ u, r = .next u ∧ t = g u := by
  cases r with
  | next u => exact ⟨u, rfl, by simpa using h.symm⟩
  | fault _ => simp [mapNext] at h
  | refused _ => simp [mapNext] at h

/-- Completing always answers a next state. -/
theorem complete_eq (s : State) (c : Completion) : s.complete c = .next ((s.bookkeep c).advance c) := rfl

/-- Writing a general register always answers a next state. -/
theorem finishX_eq (s : State) (r : Reg) (v : Word) :
    s.finishX r v = .next (((s.setX r v).bookkeep {}).advance {}) := rfl

/-- Raising always answers a next state: the run stops, or the trap is entered (rule R380). -/
theorem raise_eq (s : State) (e : Exc) :
    s.raise e = .next (match s.cfg.trapModel with
      | .fault => { s with outcome := .stopped e }
      | .mips1 => s.trapEntry e) := by
  unfold State.raise; cases s.cfg.trapModel <;> rfl

theorem raise_fault {s : State} (h : s.cfg.trapModel = .fault) (e : Exc) :
    s.raise e = .next { s with outcome := .stopped e } := by simp [State.raise, h]

theorem raise_mips1 {s : State} (h : s.cfg.trapModel = .mips1) (e : Exc) :
    s.raise e = .next (s.trapEntry e) := by simp [State.raise, h]

/-- What ends an instruction before its effect answers a next state only by raising. -/
theorem stop_eq_next {s : State} {st : Stop} {t : State} (h : s.stop st = .next t) :
    ∃ e, st = .exc e ∧ s.raise e = .next t := by
  cases st with
  | exc e => exact ⟨e, rfl, h⟩
  | fault r => simp [State.stop] at h
  | refuse r => simp [State.stop] at h

/-! ## The coprocessor test -/

/-- The test passes exactly where the coprocessor is usable, and, for coprocessor 0, there are handlers. -/
theorem gate_eq_none {s : State} {z : CopNum} :
    s.gate z = none ↔ s.usable z = true ∧ ¬(z = 0 ∧ s.cfg.trapModel = .fault) := by
  unfold State.gate
  split
  · simp_all
  · split <;> simp_all

/-- What the test can report (rules R101, R355). -/
theorem gate_eq_some {s : State} {z : CopNum} {st : Stop} (h : s.gate z = some st) :
    st = .refuse .cop0InFaultModel ∨ st = .exc (.coprocessorUnusable z) := by
  unfold State.gate at h
  split at h
  · exact .inl (by simpa using h.symm)
  · split at h
    · simp at h
    · exact .inr (by simpa using h.symm)

theorem onCop_of_gate {s : State} {z : CopNum} (h : s.gate z = none) (k : Result) : s.onCop z k = k := by
  simp [State.onCop, h]

/-- A next state under the test: the coprocessor is unusable and that is raised, or the effect's own. -/
theorem onCop_eq_next {s : State} {z : CopNum} {k : Result} {t : State} (h : s.onCop z k = .next t) :
    s.raise (.coprocessorUnusable z) = .next t ∨ (s.gate z = none ∧ k = .next t) := by
  unfold State.onCop at h
  split at h
  · rename_i st hst
    rcases gate_eq_some hst with rfl | rfl
    · simp [State.stop] at h
    · exact .inl h
  · rename_i hst; exact .inr ⟨hst, h⟩

theorem onEven_eq_next {regs : List Reg} {k : Result} {t : State} (h : State.onEven regs k = .next t) :
    regs.all evenReg = true ∧ k = .next t := by
  unfold State.onEven at h
  split at h
  · rename_i he; exact ⟨he, h⟩
  · simp at h

/-! ## Frames -/

theorem Frame.refl (s : State) (l : List Part) : Frame s s l := by
  intro p _
  cases p <;> simp [Part.same]

theorem Frame.trans {s t u : State} {l : List Part} (h : Frame s t l) (k : Frame t u l) : Frame s u l := by
  intro p hp
  have h1 := h p hp
  have h2 := k p hp
  cases p <;> simp only [Part.same] at * <;> exact h2.trans h1

theorem Frame.mono {s t : State} {l m : List Part} (h : Frame s t l) (hm : ∀ p ∈ l, p ∈ m) :
    Frame s t m := fun p hp => h p fun hl => hp (hm p hl)

/-- Completing changes no piece of state a frame speaks of. -/
theorem frame_complete {s t : State} {l : List Part} (h : Frame s t l) (c : Completion) :
    Frame s ((t.bookkeep c).advance c) l := by
  refine h.trans ?_
  intro p _
  cases p <;> simp [Part.same]

theorem frame_setX (s : State) (r : Reg) (v : Word) : Frame s (s.setX r v) [.gpr r] := by
  intro p hp
  cases p <;> simp_all [Part.same, x_setX]

theorem frame_setF (s : State) (r : Reg) (v : Word) : Frame s (s.setF r v) [.fpr r] := by
  intro p hp
  cases p <;> simp_all [Part.same, f_setF]

theorem frame_setD (s : State) (r : Reg) (v : DWord) : Frame s (s.setD r v) [.fpr r, .fpr (r + 1)] := by
  intro p hp
  cases p <;> simp_all [Part.same, f_setD]

theorem frame_drawn (s : State) : Frame s s.drawn [.draws] := by
  intro p hp
  cases p <;> simp_all [Part.same]

/-- A completed instruction whose own update left the control state alone. -/
theorem after_complete {s u : State} (c : Completion) (hcfg : u.cfg = s.cfg) (hpc : u.pc = s.pc)
    (hnpc : u.npc = s.npc) (hdel : u.inDelay = s.inDelay) (hl : u.loadPending = s.loadPending)
    (hf : u.fccFresh = s.fccFresh) (ha : u.hiloAge = s.hiloAge) :
    After s ((u.bookkeep c).advance c) c := by
  refine ⟨?_, ?_, ?_, ?_, ?_⟩
  · intro h; simp [hcfg, hpc, hnpc, hdel, h]
  · intro h; simp [hcfg, hnpc, h]
  · simp [hcfg, hl]
  · simp [hcfg, hf]
  · simp [hcfg, ha]

/-! ## The step -/

/-- A step that answers a next state: it ran, and the next state is a cycle's with the inputs sampled. -/
theorem step_eq_next {s t : State} (h : step s = .next t) :
    s.outcome = .running ∧ ∃ u, s.cycle exec = .next u ∧ t = u.sampleInputs := by
  unfold step State.stepWith at h
  split at h
  · simp at h
  · rename_i hr
    obtain ⟨u, hu, rfl⟩ := mapNext_eq_next h
    exact ⟨hr, u, hu, rfl⟩

theorem step_running {s : State} (h : s.outcome = .running) :
    step s = mapNext State.sampleInputs (s.cycle exec) := by
  simp [step, State.stepWith, h]

/-- A cycle that answers a next state: an exception raised, or an instruction run after passing the
decoder's reports and the hazard checks. -/
theorem cycle_eq_next {s t : State} (h : s.cycle exec = .next t) :
    (∃ e, s.raise e = .next t) ∨
    ∃ w i, s.fetch = .ok w ∧ decode s.cfg w = .instr i ∧ s.decodeStop i = none ∧ s.hazard i = none ∧
      exec i s = .next t := by
  unfold State.cycle at h
  split at h
  · exact .inl ⟨_, h⟩
  · split at h
    · obtain ⟨e, _, he⟩ := stop_eq_next h; exact .inl ⟨e, he⟩
    · rename_i w hw
      unfold State.runDecoded at h
      split at h
      · split at h
        · obtain ⟨e, _, he⟩ := stop_eq_next h; exact .inl ⟨e, he⟩
        · exact .inl ⟨_, h⟩
      · split at h
        · obtain ⟨e, _, he⟩ := stop_eq_next h; exact .inl ⟨e, he⟩
        · simp at h
      · rename_i i hi
        split at h
        · obtain ⟨e, _, he⟩ := stop_eq_next h; exact .inl ⟨e, he⟩
        · rename_i hd
          split at h
          · simp at h
          · rename_i hz; exact .inr ⟨w, i, hw, hi, hd, hz, h⟩

theorem onCop_of_stop {s : State} {z : CopNum} {st : Stop} (h : s.gate z = some st) (k : Result) :
    s.onCop z k = s.stop st := by
  simp [State.onCop, h]

/-- What the decoder reports of an instruction: the refusal of `lwc0` and `swc0`, or the coprocessor's test. -/
theorem decodeStop_eq_some {s : State} {i : Instr} {st : Stop} (h : s.decodeStop i = some st) :
    (isCop0LoadStore i = true ∧ st = .refuse .cop0LoadStore) ∨
      ∃ z, coprocessor i = some z ∧ s.gate z = some st := by
  unfold State.decodeStop at h
  split at h
  · rename_i hc; exact .inl ⟨hc, (Option.some.inj h).symm⟩
  · split at h
    · rename_i z hz; exact .inr ⟨z, hz, h⟩
    · cases h

/-- What the decoder reports of an instruction is also what `exec` answers. -/
theorem exec_of_decodeStop {s : State} {i : Instr} {st : Stop} (h : s.decodeStop i = some st) :
    exec i s = s.stop st := by
  rcases decodeStop_eq_some h with ⟨hc, rfl⟩ | ⟨z, hz, hg⟩
  · cases i <;> first | rfl | cases hc
  · by_cases hc : isCop0LoadStore i = true
    · have hst : st = .refuse .cop0LoadStore := by
        rw [State.decodeStop, if_pos hc] at h
        exact (Option.some.inj h).symm
      subst hst
      cases i <;> first | rfl | cases hc
    · cases i <;> first
        | cases hz
          done
        | (cases hz; first | exact onCop_of_stop hg _ | exact absurd rfl hc)

end Sys2Proof.Machine
end

