-- ==== Sys2Proof/Laws/Memory.lean ====
section
/-! SUPPORT. Memory and `dirty`: reads after writes, and the canonical forms every operation keeps (rules R41,
R51, R67). -/

namespace Sys2Proof.Machine

theorem wf_cons {c : Host.Cell} {m : Memory} (h : Memory.wf (c :: m)) : Memory.wf m :=
  ⟨h.1.of_cons, fun d hd => h.2 d (List.mem_cons_of_mem _ hd)⟩

/-- An address below every listed address reads as unlisted. -/
theorem read_below : ∀ (m : Memory) (a : Nat), (∀ c ∈ m, a < c.1) → Memory.read m a = unlistedByte
  | [], _, _ => rfl
  | (b, v) :: m, a, h => by
    have hb : a < b := h (b, v) (by simp)
    rw [Memory.read, if_neg (by omega)]
    exact read_below m a fun c hc => h c (List.mem_cons_of_mem _ hc)

/-- A write leaves every other address alone. -/
theorem read_write_of_ne : ∀ (m : Memory) (a b : Nat) (v : Byte), b ≠ a →
    Memory.read (Memory.write m a v) b = Memory.read m b
  | [], a, b, v, h => by
    unfold Memory.write; split <;> simp [Memory.read, h]
  | (c, w) :: m, a, b, v, h => by
    unfold Memory.write
    split
    · split <;> simp [Memory.read, h]
    · split
      · rename_i hac; subst hac
        split <;> simp [Memory.read, h]
      · simp only [Memory.read]
        split
        · rfl
        · exact read_write_of_ne m a b v h

/-- A write to canonical memory is read back. -/
theorem read_write_same : ∀ (m : Memory) (a : Nat) (v : Byte), Memory.wf m →
    Memory.read (Memory.write m a v) a = v
  | [], a, v, _ => by
    unfold Memory.write; split <;> simp_all [Memory.read]
  | (c, w) :: m, a, v, h => by
    have hlt : ∀ d ∈ m, c < d.1 := fun d hd => (List.pairwise_cons.1 h.1).1 d hd
    unfold Memory.write
    split
    · rename_i hac
      split
      · rename_i hv; rw [hv]
        apply read_below
        intro d hd
        rcases List.mem_cons.1 hd with rfl | hd
        · exact hac
        · exact lt_trans hac (hlt d hd)
      · simp [Memory.read]
    · split
      · rename_i hac; subst hac
        split
        · rename_i hv; rw [hv]; exact read_below m a hlt
        · simp [Memory.read]
      · rename_i hne
        simp only [Memory.read, if_neg hne]
        exact read_write_same m a v (wf_cons h)

theorem mem_write_ge : ∀ (m : Memory) (a : Nat) (v : Byte) (k : Nat), k < a → (∀ c ∈ m, k < c.1) →
    ∀ c ∈ Memory.write m a v, k < c.1
  | [], a, v, k, hk, _ => by
    unfold Memory.write; split <;> simp_all
  | (b, w) :: m, a, v, k, hk, h => by
    have hb := h (b, w) (by simp)
    have hm : ∀ c ∈ m, k < c.1 := fun c hc => h c (List.mem_cons_of_mem _ hc)
    unfold Memory.write
    intro c hc
    split at hc
    · split at hc
      · exact h c hc
      · rcases List.mem_cons.1 hc with rfl | hc
        · exact hk
        · exact h c hc
    · split at hc
      · split at hc
        · exact hm c hc
        · rcases List.mem_cons.1 hc with rfl | hc
          · exact hk
          · exact hm c hc
      · rcases List.mem_cons.1 hc with rfl | hc
        · exact hb
        · exact mem_write_ge m a v k hk hm c hc

/-- A write keeps the canonical form. -/
theorem wf_write : ∀ (m : Memory) (a : Nat) (v : Byte), Memory.wf m → a < 4294967296 →
    Memory.wf (Memory.write m a v)
  | [], a, v, _, ha => by
    unfold Memory.write
    split
    · exact ⟨List.Pairwise.nil, by simp⟩
    · rename_i hv; exact ⟨by simp, by simp [hv, ha]⟩
  | (b, w) :: m, a, v, h, ha => by
    have hlt : ∀ d ∈ m, b < d.1 := fun d hd => (List.pairwise_cons.1 h.1).1 d hd
    unfold Memory.write
    split
    · rename_i hab
      split
      · exact h
      · rename_i hv
        refine ⟨List.pairwise_cons.2 ⟨?_, h.1⟩, ?_⟩
        · intro d hd
          rcases List.mem_cons.1 hd with rfl | hd
          · exact hab
          · exact lt_trans hab (hlt d hd)
        · intro d hd
          rcases List.mem_cons.1 hd with rfl | hd
          · exact ⟨hv, ha⟩
          · exact h.2 d hd
    · split
      · rename_i hab; subst hab
        split
        · exact wf_cons h
        · rename_i hv
          refine ⟨List.pairwise_cons.2 ⟨hlt, (wf_cons h).1⟩, ?_⟩
          intro d hd
          rcases List.mem_cons.1 hd with rfl | hd
          · exact ⟨hv, ha⟩
          · exact (wf_cons h).2 d hd
      · have ih := wf_write m a v (wf_cons h) ha
        refine ⟨List.pairwise_cons.2 ⟨mem_write_ge m a v b (by omega) hlt, ih.1⟩, ?_⟩
        intro d hd
        rcases List.mem_cons.1 hd with rfl | hd
        · exact h.2 _ (by simp)
        · exact ih.2 d hd

/-- Writing cells keeps the canonical form. -/
theorem wf_writeCells (l : List Host.Cell) (m : Memory) (h : Memory.wf m)
    (hl : ∀ c ∈ l, c.1 < 4294967296) : Memory.wf (Memory.writeCells m l) := by
  induction l generalizing m with
  | nil => exact h
  | cons c l ih =>
    exact ih _ (wf_write m c.1 c.2 h (hl c (by simp))) fun d hd => hl d (List.mem_cons_of_mem _ hd)

/-- Writing cells leaves every address they do not name alone. -/
theorem read_writeCells_of_notMem (l : List Host.Cell) (m : Memory) (a : Nat)
    (h : ∀ c ∈ l, c.1 ≠ a) : Memory.read (Memory.writeCells m l) a = Memory.read m a := by
  induction l generalizing m with
  | nil => rfl
  | cons c l ih =>
    have := ih (Memory.write m c.1 c.2) fun d hd => h d (List.mem_cons_of_mem _ hd)
    exact this.trans (read_write_of_ne m c.1 a c.2 fun e => h c (by simp) e.symm)

theorem mem_cellsAt {a : Nat} {bs : List Byte} {c : Host.Cell} (h : c ∈ cellsAt a bs) :
    a ≤ c.1 ∧ c.1 < a + bs.length := by
  induction bs generalizing a with
  | nil => simp [cellsAt] at h
  | cons b bs ih =>
    rcases List.mem_cons.1 h with rfl | h
    · simp
    · have := ih h
      simp only [List.length_cons]; omega

/-- Bytes laid out from `a` upwards, read back one by one; every other byte as before. -/
theorem read_writeCells_cellsAt (bs : List Byte) (m : Memory) (a b : Nat) (hm : Memory.wf m)
    (ha : a + bs.length ≤ 4294967296) : Memory.read (Memory.writeCells m (cellsAt a bs)) b =
      if h : a ≤ b ∧ b < a + bs.length then bs[b - a]'(by omega) else Memory.read m b := by
  induction bs generalizing m a with
  | nil =>
    simp [cellsAt, Memory.writeCells]
  | cons v bs ih =>
    have hlen : (v :: bs).length = bs.length + 1 := rfl
    have step : Memory.writeCells m (cellsAt a (v :: bs)) =
        Memory.writeCells (Memory.write m a v) (cellsAt (a + 1) bs) := rfl
    rw [step, ih (Memory.write m a v) (a + 1) (wf_write m a v hm (by omega)) (by omega)]
    by_cases h1 : a + 1 ≤ b ∧ b < a + 1 + bs.length
    · have h2 : a ≤ b ∧ b < a + (v :: bs).length := by omega
      rw [dif_pos h1, dif_pos h2]
      have : b - a = (b - (a + 1)) + 1 := by omega
      simp [this]
    · rw [dif_neg h1]
      by_cases h3 : b = a
      · subst h3
        rw [read_write_same m b v hm, dif_pos (by omega)]
        simp
      · rw [read_write_of_ne m a b v h3, dif_neg (by omega)]

/-! ## The set `dirty` -/

theorem mem_addrInsert : ∀ (l : List Nat) (a b : Nat), b ∈ addrInsert l a ↔ b = a ∨ b ∈ l
  | [], a, b => by simp [addrInsert]
  | c :: l, a, b => by
    unfold addrInsert
    split
    · simp
    · split
      · rename_i h; subst h; simp
      · simp only [List.mem_cons, mem_addrInsert l a b]; tauto

theorem addrWf_insert : ∀ (l : List Nat) (a : Nat), addrWf l → a < 4294967296 → addrWf (addrInsert l a)
  | [], a, _, ha => by simp [addrInsert, addrWf, ha]
  | b :: l, a, h, ha => by
    have hlt : ∀ d ∈ l, b < d := (List.pairwise_cons.1 h.1).1
    have hl : addrWf l := ⟨h.1.of_cons, fun d hd => h.2 d (List.mem_cons_of_mem _ hd)⟩
    unfold addrInsert
    split
    · rename_i hab
      refine ⟨List.pairwise_cons.2 ⟨?_, h.1⟩, ?_⟩
      · intro d hd
        rcases List.mem_cons.1 hd with rfl | hd
        · exact hab
        · exact lt_trans hab (hlt d hd)
      · intro d hd
        rcases List.mem_cons.1 hd with rfl | hd
        · exact ha
        · exact h.2 d hd
    · split
      · exact h
      · have ih := addrWf_insert l a hl ha
        refine ⟨List.pairwise_cons.2 ⟨?_, ih.1⟩, ?_⟩
        · intro d hd
          rcases (mem_addrInsert l a d).1 hd with rfl | hd
          · omega
          · exact hlt d hd
        · intro d hd
          rcases List.mem_cons.1 hd with rfl | hd
          · exact h.2 _ (by simp)
          · exact ih.2 d hd

theorem mem_addrInsertCells (cells : List Host.Cell) (l : List Nat) (b : Nat) :
    b ∈ addrInsertCells l cells ↔ b ∈ l ∨ ∃ c ∈ cells, c.1 = b := by
  induction cells generalizing l with
  | nil => simp [addrInsertCells]
  | cons c cells ih =>
    have : addrInsertCells l (c :: cells) = addrInsertCells (addrInsert l c.1) cells := rfl
    rw [this, ih, mem_addrInsert]
    simp only [List.mem_cons, exists_eq_or_imp]
    constructor
    · rintro ((h | h) | h)
      · exact .inr (.inl h.symm)
      · exact .inl h
      · exact .inr (.inr h)
    · rintro (h | h | h)
      · exact .inl (.inr h)
      · exact .inl (.inl h.symm)
      · exact .inr h

theorem addrWf_insertCells (cells : List Host.Cell) (l : List Nat) (h : addrWf l)
    (hc : ∀ c ∈ cells, c.1 < 4294967296) : addrWf (addrInsertCells l cells) := by
  induction cells generalizing l with
  | nil => exact h
  | cons c cells ih =>
    exact ih _ (addrWf_insert l c.1 h (hc c (by simp))) fun d hd => hc d (List.mem_cons_of_mem _ hd)

/-! ## The state's memory -/

/-- Writing cells to the state keeps both canonical forms. -/
theorem writeCells_wf (s : State) (cells : List Host.Cell) (hm : Memory.wf s.mem) (hd : addrWf s.dirty)
    (hc : ∀ c ∈ cells, c.1 < 4294967296) :
    Memory.wf (s.writeCells cells).mem ∧ addrWf (s.writeCells cells).dirty := by
  refine ⟨wf_writeCells cells s.mem hm hc, ?_⟩
  unfold State.writeCells
  dsimp only
  split
  · exact hd
  · exact addrWf_insertCells cells s.dirty hd hc

/-- Reset memory is in canonical form. -/
theorem reset_mem_wf : Memory.wf State.reset.mem := by decide

end Sys2Proof.Machine
end

