-- ==== Sys2Proof/Laws/Access.lean ====
section
/-! SUPPORT. What an access that passes its checks has been told (rules R54, R60 to R64), and what the loads
and stores built on it can answer. -/

namespace Sys2Proof.Machine

/-- Translation keeps the place within a page (rules R61, R63). -/
theorem physical_low {s : State} {va pa : Word} {k : Access} (h : s.physical va k = .ok pa) :
    pa.toNat % 4096 = va.toNat % 4096 := by
  unfold State.physical at h
  split at h
  · cases h; rfl
  · split at h
    · simp at h
    · split at h
      · cases h; rw [BitVec.toNat_sub, show (0x80000000 : Word).toNat = 0x80000000 from rfl]; omega
      · split at h
        · cases h; rw [BitVec.toNat_sub, show (0xA0000000 : Word).toNat = 0xA0000000 from rfl]; omega
        · unfold State.translate at h
          split at h
          · simp at h
          · split at h
            · simp at h
            · split at h
              · simp at h
              · cases h
                simp only [BitVec.toNat_append, BitVec.extractLsb'_toNat, Nat.shiftRight_zero]
                rw [← Nat.shiftLeft_add_eq_or_of_lt (by omega), Nat.shiftLeft_eq]
                omega
          · simp at h

/-- An access that passes its checks: alignment, admission of every byte, and no byte above the top. -/
theorem reach_ok {s : State} {va : Word} {n : Nat} {k : Access} {a : Nat} (hn : n ∣ 4096)
    (h : s.reach va n k = .ok a) :
    va.toNat % n = 0 ∧ a % n = 0 ∧ a + n ≤ 4294967296 ∧ a % 4096 = va.toNat % 4096 ∧
      (∀ i < n, admits s.cfg.memDomain (a + i) = true) ∧
      ∃ pa : Word, s.physical va k = .ok pa ∧ a = pa.toNat := by
  unfold State.reach at h
  split at h
  · simp at h
  · rename_i hal
    split at h
    · simp at h
    · rename_i pa hpa
      split at h
      · simp at h
      · rename_i hadm
        cases h
        have hlow := physical_low hpa
        have hva : va.toNat % n = 0 := by omega
        have hmod : pa.toNat % n = 0 := by
          have h1 := Nat.mod_mod_of_dvd pa.toNat hn
          have h2 := Nat.mod_mod_of_dvd va.toNat hn
          rw [← h1, hlow, h2, hva]
        refine ⟨hva, hmod, ?_, hlow, ?_, pa, hpa, rfl⟩
        · have hlt := pa.isLt
          obtain ⟨q, hq⟩ := hn
          obtain ⟨m, hm⟩ := Nat.dvd_of_mod_eq_zero hmod
          have htop : (4294967296 : Nat) = n * (q * 1048576) := by rw [← Nat.mul_assoc, ← hq]
          have hnpos : 0 < n := by
            rcases Nat.eq_zero_or_pos n with h0 | h0
            · subst h0; simp at hq
            · exact h0
          have : m < q * 1048576 := by
            have : n * m < n * (q * 1048576) := by omega
            exact Nat.lt_of_mul_lt_mul_left this
          have : n * (m + 1) ≤ n * (q * 1048576) := Nat.mul_le_mul_left n this
          rw [Nat.mul_add, Nat.mul_one] at this
          omega
        · intro i hi
          unfold State.admitAll at hadm
          split at hadm
          · rename_i hall
            exact List.all_eq_true.1 hall _ (List.mem_map.2 ⟨i, List.mem_range.2 hi, rfl⟩)
          · simp at hadm

/-- A left or right access that passes its checks is told its aligned word. -/
theorem reachPart_ok {s : State} {left : Bool} {va : Word} {k : Access} {base : Nat}
    (h : s.reachPart left va k = .ok base) :
    base % 4 = 0 ∧ base + 4 ≤ 4294967296 ∧
      (∀ o ∈ laneOffsets left s.cfg.bigEndian (va.toNat % 4), admits s.cfg.memDomain (base + o) = true) ∧
      ∃ pa : Word, s.physical va k = .ok pa ∧ base = pa.toNat - pa.toNat % 4 := by
  unfold State.reachPart at h
  split at h
  · simp at h
  · rename_i pa hpa
    simp only at h
    split at h
    · simp at h
    · rename_i hadm
      cases h
      have := pa.isLt
      refine ⟨by omega, by omega, ?_, pa, hpa, rfl⟩
      intro o ho
      unfold State.admitAll at hadm
      split at hadm
      · rename_i hall
        exact List.all_eq_true.1 hall _ (List.mem_map.2 ⟨o, ho, rfl⟩)
      · simp at hadm

/-- Every lane pairs with an offset inside the aligned word (rule R232). -/
theorem lane_lt {left be : Bool} {b k o : Nat} (hb : b < 4) (hk : k < 4) (h : lane left be b k = some o) :
    o < 4 := by
  unfold lane at h
  split at h <;> split at h <;> simp_all <;> omega

/-- The bytes a left or right transfer touches: from the address to the end of its aligned word on the
instruction's side (rule R232). -/
theorem mem_laneOffsets (left be : Bool) {b o : Nat} (hb : b < 4) :
    o ∈ laneOffsets left be b ↔ o < 4 ∧ if left = be then b ≤ o else o ≤ b := by
  interval_cases b <;> cases left <;> cases be <;> simp [laneOffsets, lane] <;> omega

/-! An access that fails its checks is the failure of what is built on it (rule R231). -/

theorem loadByte_error {s : State} {va : Word} {e : Stop} (h : s.reach va 1 .load = .error e) :
    s.loadByte va = .error e := by rw [State.loadByte, h]

theorem loadHalf_error {s : State} {va : Word} {e : Stop} (h : s.reach va 2 .load = .error e) :
    s.loadHalf va = .error e := by rw [State.loadHalf, h]

theorem loadWord_error {s : State} {va : Word} {e : Stop} (h : s.reach va 4 .load = .error e) :
    s.loadWord va = .error e := by rw [State.loadWord, h]

theorem loadPart_error {s : State} {left : Bool} {va old : Word} {e : Stop}
    (h : s.reachPart left va .load = .error e) : s.loadPart left va old = .error e := by
  rw [State.loadPart, h]

theorem store_error {s : State} {va : Word} {bytes : List Byte} {e : Stop}
    (h : s.reach va bytes.length .store = .error e) : s.store va bytes = .error e := by
  rw [State.store, h]

theorem storePart_error {s : State} {left : Bool} {va v : Word} {e : Stop}
    (h : s.reachPart left va .store = .error e) : s.storePart left va v = .error e := by
  rw [State.storePart, h]

/-- A store writes its bytes from the physical address upwards, or changes nothing. -/
theorem store_eq_ok {s t : State} {va : Word} {bytes : List Byte} (h : s.store va bytes = .ok t) :
    ∃ a, s.reach va bytes.length .store = .ok a ∧ t = s.writeCells (cellsAt a bytes) := by
  unfold State.store at h
  split at h
  · simp at h
  · rename_i a ha; cases h; exact ⟨a, ha, rfl⟩

/-- A left or right store writes its paired bytes into the aligned word, or changes nothing. -/
theorem storePart_eq_ok {s t : State} {left : Bool} {va v : Word} (h : s.storePart left va v = .ok t) :
    ∃ base, s.reachPart left va .store = .ok base ∧
      t = s.writeCells (laneCells left s.cfg.bigEndian (va.toNat % 4) base v) := by
  unfold State.storePart at h
  split at h
  · simp at h
  · rename_i a ha; cases h; exact ⟨a, ha, rfl⟩

/-- A load that answers a next state: its check raised, or the register is written. -/
theorem finishLoad_eq_next {s t : State} {rt : Reg} {r : Except Stop Word}
    (h : s.finishLoad rt r = .next t) :
    (∃ e, s.raise e = .next t) ∨
      ∃ v, r = .ok v ∧ (s.setX rt v).complete { pending := .gpr rt } = .next t := by
  cases r with
  | error st => obtain ⟨e, _, he⟩ := stop_eq_next h; exact .inl ⟨e, he⟩
  | ok v => exact .inr ⟨v, rfl, h⟩

/-- The same of a load into another register. -/
theorem loadThen_eq_next {s t : State} {r : Except Stop Word} {k : Word → Result}
    (h : s.loadThen r k = .next t) : (∃ e, s.raise e = .next t) ∨ ∃ v, r = .ok v ∧ k v = .next t := by
  cases r with
  | error st => obtain ⟨e, _, he⟩ := stop_eq_next h; exact .inl ⟨e, he⟩
  | ok v => exact .inr ⟨v, rfl, h⟩

/-- A store that answers a next state: its check raised, or memory is written. -/
theorem finishStore_eq_next {s t : State} {r : Except Stop State} (h : s.finishStore r = .next t) :
    (∃ e, s.raise e = .next t) ∨ ∃ u, r = .ok u ∧ u.complete {} = .next t := by
  cases r with
  | error st => obtain ⟨e, _, he⟩ := stop_eq_next h; exact .inl ⟨e, he⟩
  | ok v => exact .inr ⟨v, rfl, h⟩

end Sys2Proof.Machine
end

