-- ==== Sys2Proof/Laws/Encoding.lean ====
section
/-! SUPPORT. The fields of the words `packR`, `packI`, `packJ`, `packC`, `packCo` build, and the bits they
leave zero: what the decoder reads back from the encoder's words. -/

namespace Sys2Proof

@[simp] theorem opOf_packR (op : BitVec 6) (rs : Reg) (rt : Reg) (rd : Reg) (sh : Reg) (fn : BitVec 6) :
    opOf (packR op rs rt rd sh fn) = op := by
  change @BitVec.extractLsb' (6+5+5+5+5+6) 26 6 (op ++ rs ++ rt ++ rd ++ sh ++ fn) = _
  ext i hi
  simp only [BitVec.getElem_extractLsb', BitVec.getLsbD_append]
  split_ifs <;> try omega
  rw [← BitVec.getLsbD_eq_getElem]; congr 1; omega

@[simp] theorem rsOf_packR (op : BitVec 6) (rs : Reg) (rt : Reg) (rd : Reg) (sh : Reg) (fn : BitVec 6) :
    rsOf (packR op rs rt rd sh fn) = rs := by
  change @BitVec.extractLsb' (6+5+5+5+5+6) 21 5 (op ++ rs ++ rt ++ rd ++ sh ++ fn) = _
  ext i hi
  simp only [BitVec.getElem_extractLsb', BitVec.getLsbD_append]
  split_ifs <;> try omega
  rw [← BitVec.getLsbD_eq_getElem]; congr 1; omega

@[simp] theorem rtOf_packR (op : BitVec 6) (rs : Reg) (rt : Reg) (rd : Reg) (sh : Reg) (fn : BitVec 6) :
    rtOf (packR op rs rt rd sh fn) = rt := by
  change @BitVec.extractLsb' (6+5+5+5+5+6) 16 5 (op ++ rs ++ rt ++ rd ++ sh ++ fn) = _
  ext i hi
  simp only [BitVec.getElem_extractLsb', BitVec.getLsbD_append]
  split_ifs <;> try omega
  rw [← BitVec.getLsbD_eq_getElem]; congr 1; omega

@[simp] theorem rdOf_packR (op : BitVec 6) (rs : Reg) (rt : Reg) (rd : Reg) (sh : Reg) (fn : BitVec 6) :
    rdOf (packR op rs rt rd sh fn) = rd := by
  change @BitVec.extractLsb' (6+5+5+5+5+6) 11 5 (op ++ rs ++ rt ++ rd ++ sh ++ fn) = _
  ext i hi
  simp only [BitVec.getElem_extractLsb', BitVec.getLsbD_append]
  split_ifs <;> try omega
  rw [← BitVec.getLsbD_eq_getElem]; congr 1; omega

@[simp] theorem shamtOf_packR (op : BitVec 6) (rs : Reg) (rt : Reg) (rd : Reg) (sh : Reg) (fn : BitVec 6) :
    shamtOf (packR op rs rt rd sh fn) = sh := by
  change @BitVec.extractLsb' (6+5+5+5+5+6) 6 5 (op ++ rs ++ rt ++ rd ++ sh ++ fn) = _
  ext i hi
  simp only [BitVec.getElem_extractLsb', BitVec.getLsbD_append]
  split_ifs <;> try omega
  rw [← BitVec.getLsbD_eq_getElem]; congr 1; omega

@[simp] theorem functOf_packR (op : BitVec 6) (rs : Reg) (rt : Reg) (rd : Reg) (sh : Reg) (fn : BitVec 6) :
    functOf (packR op rs rt rd sh fn) = fn := by
  change @BitVec.extractLsb' (6+5+5+5+5+6) 0 6 (op ++ rs ++ rt ++ rd ++ sh ++ fn) = _
  ext i hi
  simp only [BitVec.getElem_extractLsb', BitVec.getLsbD_append]
  split_ifs <;> try omega
  rw [← BitVec.getLsbD_eq_getElem]; congr 1; omega

@[simp] theorem cp0FunctOf_packR (op : BitVec 6) (rs : Reg) (rt : Reg) (rd : Reg) (sh : Reg) (fn : BitVec 6) :
    cp0FunctOf (packR op rs rt rd sh fn) = fn.extractLsb' 0 5 := by
  change @BitVec.extractLsb' (6+5+5+5+5+6) 0 5 (op ++ rs ++ rt ++ rd ++ sh ++ fn) = _
  ext i hi
  simp only [BitVec.getElem_extractLsb', BitVec.getLsbD_append]
  split_ifs <;> try omega
  congr 1

@[simp] theorem coOf_packR (op : BitVec 6) (rs : Reg) (rt : Reg) (rd : Reg) (sh : Reg) (fn : BitVec 6) :
    coOf (packR op rs rt rd sh fn) = rs.extractLsb' 4 1 := by
  change @BitVec.extractLsb' (6+5+5+5+5+6) 25 1 (op ++ rs ++ rt ++ rd ++ sh ++ fn) = _
  ext i hi
  simp only [BitVec.getElem_extractLsb', BitVec.getLsbD_append]
  split_ifs <;> try omega
  congr 1; omega

@[simp] theorem tfOf_packR (op : BitVec 6) (rs : Reg) (rt : Reg) (rd : Reg) (sh : Reg) (fn : BitVec 6) :
    tfOf (packR op rs rt rd sh fn) = rt.extractLsb' 0 1 := by
  change @BitVec.extractLsb' (6+5+5+5+5+6) 16 1 (op ++ rs ++ rt ++ rd ++ sh ++ fn) = _
  ext i hi
  simp only [BitVec.getElem_extractLsb', BitVec.getLsbD_append]
  split_ifs <;> try omega
  congr 1; omega

@[simp] theorem opOf_packI (op : BitVec 6) (rs : Reg) (rt : Reg) (imm : BitVec 16) :
    opOf (packI op rs rt imm) = op := by
  change @BitVec.extractLsb' (6+5+5+16) 26 6 (op ++ rs ++ rt ++ imm) = _
  ext i hi
  simp only [BitVec.getElem_extractLsb', BitVec.getLsbD_append]
  split_ifs <;> try omega
  rw [← BitVec.getLsbD_eq_getElem]; congr 1; omega

@[simp] theorem rsOf_packI (op : BitVec 6) (rs : Reg) (rt : Reg) (imm : BitVec 16) :
    rsOf (packI op rs rt imm) = rs := by
  change @BitVec.extractLsb' (6+5+5+16) 21 5 (op ++ rs ++ rt ++ imm) = _
  ext i hi
  simp only [BitVec.getElem_extractLsb', BitVec.getLsbD_append]
  split_ifs <;> try omega
  rw [← BitVec.getLsbD_eq_getElem]; congr 1; omega

@[simp] theorem rtOf_packI (op : BitVec 6) (rs : Reg) (rt : Reg) (imm : BitVec 16) :
    rtOf (packI op rs rt imm) = rt := by
  change @BitVec.extractLsb' (6+5+5+16) 16 5 (op ++ rs ++ rt ++ imm) = _
  ext i hi
  simp only [BitVec.getElem_extractLsb', BitVec.getLsbD_append]
  split_ifs <;> try omega
  rw [← BitVec.getLsbD_eq_getElem]; congr 1; omega

@[simp] theorem immOf_packI (op : BitVec 6) (rs : Reg) (rt : Reg) (imm : BitVec 16) :
    immOf (packI op rs rt imm) = imm := by
  change @BitVec.extractLsb' (6+5+5+16) 0 16 (op ++ rs ++ rt ++ imm) = _
  ext i hi
  simp only [BitVec.getElem_extractLsb', BitVec.getLsbD_append]
  split_ifs <;> try omega
  rw [← BitVec.getLsbD_eq_getElem]; congr 1; omega

@[simp] theorem tfOf_packI (op : BitVec 6) (rs : Reg) (rt : Reg) (imm : BitVec 16) :
    tfOf (packI op rs rt imm) = rt.extractLsb' 0 1 := by
  change @BitVec.extractLsb' (6+5+5+16) 16 1 (op ++ rs ++ rt ++ imm) = _
  ext i hi
  simp only [BitVec.getElem_extractLsb', BitVec.getLsbD_append]
  split_ifs <;> try omega
  congr 1; omega

@[simp] theorem coOf_packI (op : BitVec 6) (rs : Reg) (rt : Reg) (imm : BitVec 16) :
    coOf (packI op rs rt imm) = rs.extractLsb' 4 1 := by
  change @BitVec.extractLsb' (6+5+5+16) 25 1 (op ++ rs ++ rt ++ imm) = _
  ext i hi
  simp only [BitVec.getElem_extractLsb', BitVec.getLsbD_append]
  split_ifs <;> try omega
  congr 1; omega

@[simp] theorem opOf_packJ (op : BitVec 6) (target : BitVec 26) :
    opOf (packJ op target) = op := by
  change @BitVec.extractLsb' (6+26) 26 6 (op ++ target) = _
  ext i hi
  simp only [BitVec.getElem_extractLsb', BitVec.getLsbD_append]
  split_ifs <;> try omega
  rw [← BitVec.getLsbD_eq_getElem]; congr 1; omega

@[simp] theorem targetOf_packJ (op : BitVec 6) (target : BitVec 26) :
    targetOf (packJ op target) = target := by
  change @BitVec.extractLsb' (6+26) 0 26 (op ++ target) = _
  ext i hi
  simp only [BitVec.getElem_extractLsb', BitVec.getLsbD_append]
  split_ifs <;> try omega
  rw [← BitVec.getLsbD_eq_getElem]; congr 1; omega

@[simp] theorem opOf_packC (op : BitVec 6) (code : BitVec 20) (fn : BitVec 6) :
    opOf (packC op code fn) = op := by
  change @BitVec.extractLsb' (6+20+6) 26 6 (op ++ code ++ fn) = _
  ext i hi
  simp only [BitVec.getElem_extractLsb', BitVec.getLsbD_append]
  split_ifs <;> try omega
  rw [← BitVec.getLsbD_eq_getElem]; congr 1; omega

@[simp] theorem codeOf_packC (op : BitVec 6) (code : BitVec 20) (fn : BitVec 6) :
    codeOf (packC op code fn) = code := by
  change @BitVec.extractLsb' (6+20+6) 6 20 (op ++ code ++ fn) = _
  ext i hi
  simp only [BitVec.getElem_extractLsb', BitVec.getLsbD_append]
  split_ifs <;> try omega
  rw [← BitVec.getLsbD_eq_getElem]; congr 1; omega

@[simp] theorem functOf_packC (op : BitVec 6) (code : BitVec 20) (fn : BitVec 6) :
    functOf (packC op code fn) = fn := by
  change @BitVec.extractLsb' (6+20+6) 0 6 (op ++ code ++ fn) = _
  ext i hi
  simp only [BitVec.getElem_extractLsb', BitVec.getLsbD_append]
  split_ifs <;> try omega
  rw [← BitVec.getLsbD_eq_getElem]; congr 1; omega

@[simp] theorem opOf_packCo (op : BitVec 6) (cofun : BitVec 25) :
    opOf (packCo op cofun) = op := by
  change @BitVec.extractLsb' (6+1+25) 26 6 (op ++ 1#1 ++ cofun) = _
  ext i hi
  simp only [BitVec.getElem_extractLsb', BitVec.getLsbD_append]
  split_ifs <;> try omega
  rw [← BitVec.getLsbD_eq_getElem]; congr 1; omega

@[simp] theorem coOf_packCo (op : BitVec 6) (cofun : BitVec 25) :
    coOf (packCo op cofun) = 1#1 := by
  change @BitVec.extractLsb' (6+1+25) 25 1 (op ++ 1#1 ++ cofun) = _
  ext i hi
  simp only [BitVec.getElem_extractLsb', BitVec.getLsbD_append]
  obtain rfl : i = 0 := by omega
  simp

@[simp] theorem cofunOf_packCo (op : BitVec 6) (cofun : BitVec 25) :
    cofunOf (packCo op cofun) = cofun := by
  change @BitVec.extractLsb' (6+1+25) 0 25 (op ++ 1#1 ++ cofun) = _
  ext i hi
  simp only [BitVec.getElem_extractLsb', BitVec.getLsbD_append]
  split_ifs <;> try omega
  rw [← BitVec.getLsbD_eq_getElem]; congr 1; omega

theorem packR_zero_sh (op : BitVec 6) (rs : Reg) (rt : Reg) (rd : Reg) (fn : BitVec 6) :
    packR op rs rt rd 0 fn &&& 0x7C0 = 0 := by
  change (op ++ rs ++ rt ++ rd ++ 0#5 ++ fn) &&& (0x7C0#(6+5+5+5+5+6)) = 0
  ext i hi
  simp only [BitVec.getElem_and, BitVec.getElem_append]
  interval_cases i <;> simp

theorem packR_zero_rt (op : BitVec 6) (rs : Reg) (rd : Reg) (sh : Reg) (fn : BitVec 6) :
    packR op rs 0 rd sh fn &&& 0x1F0000 = 0 := by
  change (op ++ rs ++ 0#5 ++ rd ++ sh ++ fn) &&& (0x1F0000#(6+5+5+5+5+6)) = 0
  ext i hi
  simp only [BitVec.getElem_and, BitVec.getElem_append]
  interval_cases i <;> simp

theorem packR_zero_sh_fn (op : BitVec 6) (rs : Reg) (rt : Reg) (rd : Reg) :
    packR op rs rt rd 0 0 &&& 0x7FF = 0 := by
  change (op ++ rs ++ rt ++ rd ++ 0#5 ++ 0#6) &&& (0x7FF#(6+5+5+5+5+6)) = 0
  ext i hi
  simp only [BitVec.getElem_and, BitVec.getElem_append]
  interval_cases i <;> simp

theorem packR_zero_rd_sh (op : BitVec 6) (rs : Reg) (rt : Reg) (fn : BitVec 6) :
    packR op rs rt 0 0 fn &&& 0xFFC0 = 0 := by
  change (op ++ rs ++ rt ++ 0#5 ++ 0#5 ++ fn) &&& (0xFFC0#(6+5+5+5+5+6)) = 0
  ext i hi
  simp only [BitVec.getElem_and, BitVec.getElem_append]
  interval_cases i <;> simp

theorem packR_zero_rt_sh (op : BitVec 6) (rs : Reg) (rd : Reg) (fn : BitVec 6) :
    packR op rs 0 rd 0 fn &&& 0x1F07C0 = 0 := by
  change (op ++ rs ++ 0#5 ++ rd ++ 0#5 ++ fn) &&& (0x1F07C0#(6+5+5+5+5+6)) = 0
  ext i hi
  simp only [BitVec.getElem_and, BitVec.getElem_append]
  interval_cases i <;> simp

theorem packR_zero_rt_rd_sh (op : BitVec 6) (rs : Reg) (fn : BitVec 6) :
    packR op rs 0 0 0 fn &&& 0x1FFFC0 = 0 := by
  change (op ++ rs ++ 0#5 ++ 0#5 ++ 0#5 ++ fn) &&& (0x1FFFC0#(6+5+5+5+5+6)) = 0
  ext i hi
  simp only [BitVec.getElem_and, BitVec.getElem_append]
  interval_cases i <;> simp

theorem packR_zero_rs_rt_sh (op : BitVec 6) (rd : Reg) (fn : BitVec 6) :
    packR op 0 0 rd 0 fn &&& 0x3FF07C0 = 0 := by
  change (op ++ 0#5 ++ 0#5 ++ rd ++ 0#5 ++ fn) &&& (0x3FF07C0#(6+5+5+5+5+6)) = 0
  ext i hi
  simp only [BitVec.getElem_and, BitVec.getElem_append]
  interval_cases i <;> simp

theorem packI_zero_rt (op : BitVec 6) (rs : Reg) (imm : BitVec 16) :
    packI op rs 0 imm &&& 0x1F0000 = 0 := by
  change (op ++ rs ++ 0#5 ++ imm) &&& (0x1F0000#(6+5+5+16)) = 0
  ext i hi
  simp only [BitVec.getElem_and, BitVec.getElem_append]
  interval_cases i <;> simp

theorem packI_zero_rs (op : BitVec 6) (rt : Reg) (imm : BitVec 16) :
    packI op 0 rt imm &&& 0x3E00000 = 0 := by
  change (op ++ 0#5 ++ rt ++ imm) &&& (0x3E00000#(6+5+5+16)) = 0
  ext i hi
  simp only [BitVec.getElem_and, BitVec.getElem_append]
  interval_cases i <;> simp

theorem packI_zero_branch (op : BitVec 6) (rs : Reg) (b : Bool) (imm : BitVec 16) :
    packI op rs (if b then 1 else 0) imm &&& 0x1E0000 = 0 := by
  change (op ++ rs ++ (if b then 1#5 else 0#5) ++ imm) &&& (0x1E0000#(6+5+5+16)) = 0
  ext i hi
  simp only [BitVec.getElem_and, BitVec.getElem_append]
  cases b <;> interval_cases i <;> simp

theorem and_zero_mask (w : Word) : w &&& (0x00000000 : Word) = 0 := by simp

end Sys2Proof
end

