-- ==== Sys2Proof/Laws/FloatingPoint.lean ====
section
/-! SUPPORT. What completing a floating-point instruction can do, each said once, and that a draw of a NaN is a
NaN (rules R291, R293, R320). -/

namespace Sys2Proof.Machine

/-! ## NaNs -/

theorem nonZeroFraction_ne_zero {n : Nat} (hn : n ≠ 0) (v : BitVec n) : nonZeroFraction v ≠ 0 := by
  unfold nonZeroFraction
  split
  · intro h
    have := congrArg BitVec.toNat h
    simp [Nat.one_mod_two_pow_eq_one.mpr (Nat.pos_of_ne_zero hn)] at this
  · assumption

theorem extract_low_append {n m : Nat} (a : BitVec n) (b : BitVec m) : (a ++ b).extractLsb' 0 m = b := by
  apply BitVec.eq_of_getLsbD_eq
  intro i hi
  simp [BitVec.getLsbD_append, hi]

theorem extract_mid_append {n k m : Nat} (a : BitVec n) (e : BitVec k) (f : BitVec m) :
    (a ++ e ++ f).extractLsb' m k = e := by
  apply BitVec.eq_of_getLsbD_eq
  intro i hi
  simp [BitVec.getLsbD_append, hi]

/-- A value whose exponent field is all ones and whose fraction is not zero is a NaN. -/
theorem value_of_fields (f : Format) (w : Nat) (h : w / 2 ^ f.fracBits % 2 ^ f.expBits = 2 ^ f.expBits - 1)
    (hm : w % 2 ^ f.fracBits ≠ 0) : f.value w = .nan := by
  simp [Format.value, h, hm]

/-- Every single-precision `draw(NaN)` is a NaN (rule R293). -/
theorem val32_nan32 (free : DWord) : val32 (nan32 free) = .nan := by
  apply value_of_fields
  · have h := congrArg BitVec.toNat (extract_mid_append (free.extractLsb' 63 1) 0xFF#8
      (nonZeroFraction (free.extractLsb' 0 23)))
    simpa [nan32, BitVec.extractLsb'_toNat, Nat.shiftRight_eq_div_pow, Format.single] using h
  · have h := congrArg BitVec.toNat (extract_low_append (free.extractLsb' 63 1 ++ 0xFF#8)
      (nonZeroFraction (free.extractLsb' 0 23)))
    have hz := nonZeroFraction_ne_zero (by decide) (free.extractLsb' 0 23)
    exact fun h0 => hz (BitVec.eq_of_toNat_eq (h.symm.trans (by
      simpa [nan32, BitVec.extractLsb'_toNat, Format.single] using h0)))

/-- Every double-precision `draw(NaN)` is a NaN (rule R293). -/
theorem val64_nan64 (free : DWord) : val64 (nan64 free) = .nan := by
  apply value_of_fields
  · have h := congrArg BitVec.toNat (extract_mid_append (free.extractLsb' 63 1) 0x7FF#11
      (nonZeroFraction (free.extractLsb' 0 52)))
    simpa [nan64, BitVec.extractLsb'_toNat, Nat.shiftRight_eq_div_pow, Format.double] using h
  · have h := congrArg BitVec.toNat (extract_low_append (free.extractLsb' 63 1 ++ 0x7FF#11)
      (nonZeroFraction (free.extractLsb' 0 52)))
    have hz := nonZeroFraction_ne_zero (by decide) (free.extractLsb' 0 52)
    exact fun h0 => hz (BitVec.eq_of_toNat_eq (h.symm.trans (by
      simpa [nan64, BitVec.extractLsb'_toNat, Format.double] using h0)))

/-! ## Completing -/

/-- A single-precision result always completes, with the value or some NaN. -/
theorem finishS_spec (s : State) (fd : Reg) (r : Option Word) :
    ∃ t, s.finishS fd r = .next t ∧ After s t {} ∧ Frame s t [.fpr fd, .draws] ∧ t.holdsSingle fd r := by
  cases r with
  | some v =>
    refine ⟨_, rfl, after_complete _ ?_ ?_ ?_ ?_ ?_ ?_ ?_, frame_complete ((frame_setF s fd v).mono ?_) _, ?_⟩ <;>
      simp [State.holdsSingle, f_setF]
  | none =>
    refine ⟨_, rfl, after_complete _ ?_ ?_ ?_ ?_ ?_ ?_ ?_,
      frame_complete (((frame_drawn s).mono ?_).trans ((frame_setF s.drawn fd _).mono ?_)) _, ?_⟩ <;>
      simp [State.holdsSingle, f_setF, val32_nan32]

/-- A double-precision result always completes, with the value or some NaN. -/
theorem finishD_spec (s : State) (fd : Reg) (r : Option DWord) :
    ∃ t, s.finishD fd r = .next t ∧ After s t {} ∧ Frame s t [.fpr fd, .fpr (fd + 1), .draws] ∧
      t.holdsDouble fd r := by
  cases r with
  | some v =>
    refine ⟨_, rfl, after_complete _ ?_ ?_ ?_ ?_ ?_ ?_ ?_, frame_complete ((frame_setD s fd v).mono ?_) _, ?_⟩ <;>
      simp [State.holdsDouble, d_setD]
  | none =>
    refine ⟨_, rfl, after_complete _ ?_ ?_ ?_ ?_ ?_ ?_ ?_,
      frame_complete (((frame_drawn s).mono ?_).trans ((frame_setD s.drawn fd _).mono ?_)) _, ?_⟩ <;>
      simp [State.holdsDouble, d_setD, val64_nan64]

/-- A conversion to an integer always completes, with the word or a draw. -/
theorem finishW_spec (s : State) (fd : Reg) (r : Option Word) :
    ∃ t, s.finishW fd r = .next t ∧ After s t {} ∧ Frame s t [.fpr fd, .draws] ∧
      ∀ w, r = some w → t.f fd = w := by
  cases r with
  | some v =>
    refine ⟨_, rfl, after_complete _ ?_ ?_ ?_ ?_ ?_ ?_ ?_, frame_complete ((frame_setF s fd v).mono ?_) _, ?_⟩ <;>
      simp [f_setF]
  | none =>
    refine ⟨_, rfl, after_complete _ ?_ ?_ ?_ ?_ ?_ ?_ ?_,
      frame_complete (((frame_drawn s).mono ?_).trans ((frame_setF s.drawn fd _).mono ?_)) _, ?_⟩ <;>
      simp [f_setF]

/-- A compare always completes and writes `fcc` alone. -/
theorem finishCompare_spec (s : State) (c : Bool) :
    ∃ t, s.finishCompare c = .next t ∧ After s t { fccFresh := true } ∧ Frame s t [.fcc] ∧ t.fcc = c := by
  refine ⟨_, rfl, after_complete _ rfl rfl rfl rfl rfl rfl rfl, frame_complete ?_ _, by simp⟩
  intro p hp
  cases p <;> simp_all [Part.same]
  all_goals rfl

end Sys2Proof.Machine
end

