-- ==== Sys2Proof/Laws/PerInstr.lean ====
section
/-! SUPPORT. Per instruction: the decoder reads back what the encoder writes (rules R82, R84), and the
encoder leaves every should-be-zero bit zero (rule R99). -/

namespace Sys2Proof.Laws.RoundTrip

set_option Elab.async false

/-- The word of `i` decodes to `i` and has no should-be-zero bit set. -/
def Statement (i : Instr) : Prop :=
  ∀ fmtW : BitVec 5, Config.fmtWFree fmtW →
    decodeRow fmtW (encode fmtW i) = some i ∧ encode fmtW i &&& i.sbzMask = 0

theorem add (rd : Reg) (rs : Reg) (rt : Reg) : Statement (.add rd rs rt) := by
  intro fmtW _
  exact ⟨by simp [encode, decodeRow, decodeSpecial], packR_zero_sh _ _ _ _ _⟩

theorem addu (rd : Reg) (rs : Reg) (rt : Reg) : Statement (.addu rd rs rt) := by
  intro fmtW _
  exact ⟨by simp [encode, decodeRow, decodeSpecial], packR_zero_sh _ _ _ _ _⟩

theorem and (rd : Reg) (rs : Reg) (rt : Reg) : Statement (.and rd rs rt) := by
  intro fmtW _
  exact ⟨by simp [encode, decodeRow, decodeSpecial], packR_zero_sh _ _ _ _ _⟩

theorem nor (rd : Reg) (rs : Reg) (rt : Reg) : Statement (.nor rd rs rt) := by
  intro fmtW _
  exact ⟨by simp [encode, decodeRow, decodeSpecial], packR_zero_sh _ _ _ _ _⟩

theorem or (rd : Reg) (rs : Reg) (rt : Reg) : Statement (.or rd rs rt) := by
  intro fmtW _
  exact ⟨by simp [encode, decodeRow, decodeSpecial], packR_zero_sh _ _ _ _ _⟩

theorem sub (rd : Reg) (rs : Reg) (rt : Reg) : Statement (.sub rd rs rt) := by
  intro fmtW _
  exact ⟨by simp [encode, decodeRow, decodeSpecial], packR_zero_sh _ _ _ _ _⟩

theorem subu (rd : Reg) (rs : Reg) (rt : Reg) : Statement (.subu rd rs rt) := by
  intro fmtW _
  exact ⟨by simp [encode, decodeRow, decodeSpecial], packR_zero_sh _ _ _ _ _⟩

theorem xor (rd : Reg) (rs : Reg) (rt : Reg) : Statement (.xor rd rs rt) := by
  intro fmtW _
  exact ⟨by simp [encode, decodeRow, decodeSpecial], packR_zero_sh _ _ _ _ _⟩

theorem slt (rd : Reg) (rs : Reg) (rt : Reg) : Statement (.slt rd rs rt) := by
  intro fmtW _
  exact ⟨by simp [encode, decodeRow, decodeSpecial], packR_zero_sh _ _ _ _ _⟩

theorem sltu (rd : Reg) (rs : Reg) (rt : Reg) : Statement (.sltu rd rs rt) := by
  intro fmtW _
  exact ⟨by simp [encode, decodeRow, decodeSpecial], packR_zero_sh _ _ _ _ _⟩

theorem sllv (rd : Reg) (rt : Reg) (rs : Reg) : Statement (.sllv rd rt rs) := by
  intro fmtW _
  exact ⟨by simp [encode, decodeRow, decodeSpecial], packR_zero_sh _ _ _ _ _⟩

theorem srav (rd : Reg) (rt : Reg) (rs : Reg) : Statement (.srav rd rt rs) := by
  intro fmtW _
  exact ⟨by simp [encode, decodeRow, decodeSpecial], packR_zero_sh _ _ _ _ _⟩

theorem srlv (rd : Reg) (rt : Reg) (rs : Reg) : Statement (.srlv rd rt rs) := by
  intro fmtW _
  exact ⟨by simp [encode, decodeRow, decodeSpecial], packR_zero_sh _ _ _ _ _⟩

theorem sll (rd : Reg) (rt : Reg) (shamt : Reg) : Statement (.sll rd rt shamt) := by
  intro fmtW _
  exact ⟨by simp [encode, decodeRow, decodeSpecial], and_zero_mask _⟩

theorem sra (rd : Reg) (rt : Reg) (shamt : Reg) : Statement (.sra rd rt shamt) := by
  intro fmtW _
  exact ⟨by simp [encode, decodeRow, decodeSpecial], and_zero_mask _⟩

theorem srl (rd : Reg) (rt : Reg) (shamt : Reg) : Statement (.srl rd rt shamt) := by
  intro fmtW _
  exact ⟨by simp [encode, decodeRow, decodeSpecial], and_zero_mask _⟩

theorem div (rs : Reg) (rt : Reg) : Statement (.div rs rt) := by
  intro fmtW _
  exact ⟨by simp [encode, decodeRow, decodeSpecial], packR_zero_rd_sh _ _ _ _⟩

theorem divu (rs : Reg) (rt : Reg) : Statement (.divu rs rt) := by
  intro fmtW _
  exact ⟨by simp [encode, decodeRow, decodeSpecial], packR_zero_rd_sh _ _ _ _⟩

theorem mult (rs : Reg) (rt : Reg) : Statement (.mult rs rt) := by
  intro fmtW _
  exact ⟨by simp [encode, decodeRow, decodeSpecial], packR_zero_rd_sh _ _ _ _⟩

theorem multu (rs : Reg) (rt : Reg) : Statement (.multu rs rt) := by
  intro fmtW _
  exact ⟨by simp [encode, decodeRow, decodeSpecial], packR_zero_rd_sh _ _ _ _⟩

theorem jr (rs : Reg) : Statement (.jr rs) := by
  intro fmtW _
  exact ⟨by simp [encode, decodeRow, decodeSpecial], packR_zero_rt_rd_sh _ _ _⟩

theorem jalr (rs : Reg) (rd : Reg) : Statement (.jalr rs rd) := by
  intro fmtW _
  exact ⟨by simp [encode, decodeRow, decodeSpecial], packR_zero_rt_sh _ _ _ _⟩

theorem mthi (rs : Reg) : Statement (.mthi rs) := by
  intro fmtW _
  exact ⟨by simp [encode, decodeRow, decodeSpecial], packR_zero_rt_rd_sh _ _ _⟩

theorem mtlo (rs : Reg) : Statement (.mtlo rs) := by
  intro fmtW _
  exact ⟨by simp [encode, decodeRow, decodeSpecial], packR_zero_rt_rd_sh _ _ _⟩

theorem mfhi (rd : Reg) : Statement (.mfhi rd) := by
  intro fmtW _
  exact ⟨by simp [encode, decodeRow, decodeSpecial], packR_zero_rs_rt_sh _ _ _⟩

theorem mflo (rd : Reg) : Statement (.mflo rd) := by
  intro fmtW _
  exact ⟨by simp [encode, decodeRow, decodeSpecial], packR_zero_rs_rt_sh _ _ _⟩

theorem syscall (code : BitVec 20) : Statement (.syscall code) := by
  intro fmtW _
  exact ⟨by simp [encode, decodeRow, decodeSpecial], and_zero_mask _⟩

theorem brk (code : BitVec 20) : Statement (.brk code) := by
  intro fmtW _
  exact ⟨by simp [encode, decodeRow, decodeSpecial], and_zero_mask _⟩

theorem addi (rt : Reg) (rs : Reg) (imm : BitVec 16) : Statement (.addi rt rs imm) := by
  intro fmtW _
  exact ⟨by simp [encode, decodeRow], and_zero_mask _⟩

theorem addiu (rt : Reg) (rs : Reg) (imm : BitVec 16) : Statement (.addiu rt rs imm) := by
  intro fmtW _
  exact ⟨by simp [encode, decodeRow], and_zero_mask _⟩

theorem andi (rt : Reg) (rs : Reg) (imm : BitVec 16) : Statement (.andi rt rs imm) := by
  intro fmtW _
  exact ⟨by simp [encode, decodeRow], and_zero_mask _⟩

theorem ori (rt : Reg) (rs : Reg) (imm : BitVec 16) : Statement (.ori rt rs imm) := by
  intro fmtW _
  exact ⟨by simp [encode, decodeRow], and_zero_mask _⟩

theorem xori (rt : Reg) (rs : Reg) (imm : BitVec 16) : Statement (.xori rt rs imm) := by
  intro fmtW _
  exact ⟨by simp [encode, decodeRow], and_zero_mask _⟩

theorem lui (rt : Reg) (imm : BitVec 16) : Statement (.lui rt imm) := by
  intro fmtW _
  exact ⟨by simp [encode, decodeRow], packI_zero_rs _ _ _⟩

theorem slti (rt : Reg) (rs : Reg) (imm : BitVec 16) : Statement (.slti rt rs imm) := by
  intro fmtW _
  exact ⟨by simp [encode, decodeRow], and_zero_mask _⟩

theorem sltiu (rt : Reg) (rs : Reg) (imm : BitVec 16) : Statement (.sltiu rt rs imm) := by
  intro fmtW _
  exact ⟨by simp [encode, decodeRow], and_zero_mask _⟩

theorem beq (rs : Reg) (rt : Reg) (offset : BitVec 16) : Statement (.beq rs rt offset) := by
  intro fmtW _
  exact ⟨by simp [encode, decodeRow], and_zero_mask _⟩

theorem bne (rs : Reg) (rt : Reg) (offset : BitVec 16) : Statement (.bne rs rt offset) := by
  intro fmtW _
  exact ⟨by simp [encode, decodeRow], and_zero_mask _⟩

theorem blez (rs : Reg) (offset : BitVec 16) : Statement (.blez rs offset) := by
  intro fmtW _
  exact ⟨by simp [encode, decodeRow], packI_zero_rt _ _ _⟩

theorem bgtz (rs : Reg) (offset : BitVec 16) : Statement (.bgtz rs offset) := by
  intro fmtW _
  exact ⟨by simp [encode, decodeRow], packI_zero_rt _ _ _⟩

theorem bltz (rs : Reg) (offset : BitVec 16) : Statement (.bltz rs offset) := by
  intro fmtW _
  exact ⟨by simp [encode, decodeRow, decodeRegimm], and_zero_mask _⟩

theorem bgez (rs : Reg) (offset : BitVec 16) : Statement (.bgez rs offset) := by
  intro fmtW _
  exact ⟨by simp [encode, decodeRow, decodeRegimm], and_zero_mask _⟩

theorem bltzal (rs : Reg) (offset : BitVec 16) : Statement (.bltzal rs offset) := by
  intro fmtW _
  exact ⟨by simp [encode, decodeRow, decodeRegimm], and_zero_mask _⟩

theorem bgezal (rs : Reg) (offset : BitVec 16) : Statement (.bgezal rs offset) := by
  intro fmtW _
  exact ⟨by simp [encode, decodeRow, decodeRegimm], and_zero_mask _⟩

theorem j (target : BitVec 26) : Statement (.j target) := by
  intro fmtW _
  exact ⟨by simp [encode, decodeRow], and_zero_mask _⟩

theorem jal (target : BitVec 26) : Statement (.jal target) := by
  intro fmtW _
  exact ⟨by simp [encode, decodeRow], and_zero_mask _⟩

theorem lb (rt : Reg) (base : Reg) (offset : BitVec 16) : Statement (.lb rt base offset) := by
  intro fmtW _
  exact ⟨by simp [encode, decodeRow], and_zero_mask _⟩

theorem lbu (rt : Reg) (base : Reg) (offset : BitVec 16) : Statement (.lbu rt base offset) := by
  intro fmtW _
  exact ⟨by simp [encode, decodeRow], and_zero_mask _⟩

theorem lh (rt : Reg) (base : Reg) (offset : BitVec 16) : Statement (.lh rt base offset) := by
  intro fmtW _
  exact ⟨by simp [encode, decodeRow], and_zero_mask _⟩

theorem lhu (rt : Reg) (base : Reg) (offset : BitVec 16) : Statement (.lhu rt base offset) := by
  intro fmtW _
  exact ⟨by simp [encode, decodeRow], and_zero_mask _⟩

theorem lw (rt : Reg) (base : Reg) (offset : BitVec 16) : Statement (.lw rt base offset) := by
  intro fmtW _
  exact ⟨by simp [encode, decodeRow], and_zero_mask _⟩

theorem lwl (rt : Reg) (base : Reg) (offset : BitVec 16) : Statement (.lwl rt base offset) := by
  intro fmtW _
  exact ⟨by simp [encode, decodeRow], and_zero_mask _⟩

theorem lwr (rt : Reg) (base : Reg) (offset : BitVec 16) : Statement (.lwr rt base offset) := by
  intro fmtW _
  exact ⟨by simp [encode, decodeRow], and_zero_mask _⟩

theorem sb (rt : Reg) (base : Reg) (offset : BitVec 16) : Statement (.sb rt base offset) := by
  intro fmtW _
  exact ⟨by simp [encode, decodeRow], and_zero_mask _⟩

theorem sh (rt : Reg) (base : Reg) (offset : BitVec 16) : Statement (.sh rt base offset) := by
  intro fmtW _
  exact ⟨by simp [encode, decodeRow], and_zero_mask _⟩

theorem sw (rt : Reg) (base : Reg) (offset : BitVec 16) : Statement (.sw rt base offset) := by
  intro fmtW _
  exact ⟨by simp [encode, decodeRow], and_zero_mask _⟩

theorem swl (rt : Reg) (base : Reg) (offset : BitVec 16) : Statement (.swl rt base offset) := by
  intro fmtW _
  exact ⟨by simp [encode, decodeRow], and_zero_mask _⟩

theorem swr (rt : Reg) (base : Reg) (offset : BitVec 16) : Statement (.swr rt base offset) := by
  intro fmtW _
  exact ⟨by simp [encode, decodeRow], and_zero_mask _⟩

theorem lwc0 (rt : Reg) (base : Reg) (offset : BitVec 16) : Statement (.lwc0 rt base offset) := by
  intro fmtW _
  exact ⟨by simp [encode, decodeRow], and_zero_mask _⟩

theorem swc0 (rt : Reg) (base : Reg) (offset : BitVec 16) : Statement (.swc0 rt base offset) := by
  intro fmtW _
  exact ⟨by simp [encode, decodeRow], and_zero_mask _⟩

theorem lwc1 (rt : Reg) (base : Reg) (offset : BitVec 16) : Statement (.lwc1 rt base offset) := by
  intro fmtW _
  exact ⟨by simp [encode, decodeRow], and_zero_mask _⟩

theorem swc1 (rt : Reg) (base : Reg) (offset : BitVec 16) : Statement (.swc1 rt base offset) := by
  intro fmtW _
  exact ⟨by simp [encode, decodeRow], and_zero_mask _⟩

theorem lwc2 (rt : Reg) (base : Reg) (offset : BitVec 16) : Statement (.lwc2 rt base offset) := by
  intro fmtW _
  exact ⟨by simp [encode, decodeRow], and_zero_mask _⟩

theorem swc2 (rt : Reg) (base : Reg) (offset : BitVec 16) : Statement (.swc2 rt base offset) := by
  intro fmtW _
  exact ⟨by simp [encode, decodeRow], and_zero_mask _⟩

theorem lwc3 (rt : Reg) (base : Reg) (offset : BitVec 16) : Statement (.lwc3 rt base offset) := by
  intro fmtW _
  exact ⟨by simp [encode, decodeRow], and_zero_mask _⟩

theorem swc3 (rt : Reg) (base : Reg) (offset : BitVec 16) : Statement (.swc3 rt base offset) := by
  intro fmtW _
  exact ⟨by simp [encode, decodeRow], and_zero_mask _⟩

theorem mfc0 (rt : Reg) (rd : Reg) : Statement (.mfc0 rt rd) := by
  intro fmtW _
  exact ⟨by simp [encode, decodeRow, decodeCop0], packR_zero_sh_fn _ _ _ _⟩

theorem cfc0 (rt : Reg) (rd : Reg) : Statement (.cfc0 rt rd) := by
  intro fmtW _
  exact ⟨by simp [encode, decodeRow, decodeCop0], packR_zero_sh_fn _ _ _ _⟩

theorem mtc0 (rt : Reg) (rd : Reg) : Statement (.mtc0 rt rd) := by
  intro fmtW _
  exact ⟨by simp [encode, decodeRow, decodeCop0], packR_zero_sh_fn _ _ _ _⟩

theorem ctc0 (rt : Reg) (rd : Reg) : Statement (.ctc0 rt rd) := by
  intro fmtW _
  exact ⟨by simp [encode, decodeRow, decodeCop0], packR_zero_sh_fn _ _ _ _⟩

theorem bc0f (offset : BitVec 16) : Statement (.bc0f offset) := by
  intro fmtW _
  exact ⟨by simp [encode, decodeRow, decodeCop0], packI_zero_branch _ _ false _⟩

theorem bc0t (offset : BitVec 16) : Statement (.bc0t offset) := by
  intro fmtW _
  exact ⟨by simp [encode, decodeRow, decodeCop0], packI_zero_branch _ _ true _⟩

theorem mfc1 (rt : Reg) (rd : Reg) : Statement (.mfc1 rt rd) := by
  intro fmtW _
  exact ⟨by simp [encode, decodeRow, decodeCop1], packR_zero_sh_fn _ _ _ _⟩

theorem cfc1 (rt : Reg) (rd : Reg) : Statement (.cfc1 rt rd) := by
  intro fmtW _
  exact ⟨by simp [encode, decodeRow, decodeCop1], packR_zero_sh_fn _ _ _ _⟩

theorem mtc1 (rt : Reg) (rd : Reg) : Statement (.mtc1 rt rd) := by
  intro fmtW _
  exact ⟨by simp [encode, decodeRow, decodeCop1], packR_zero_sh_fn _ _ _ _⟩

theorem ctc1 (rt : Reg) (rd : Reg) : Statement (.ctc1 rt rd) := by
  intro fmtW _
  exact ⟨by simp [encode, decodeRow, decodeCop1], packR_zero_sh_fn _ _ _ _⟩

theorem bc1f (offset : BitVec 16) : Statement (.bc1f offset) := by
  intro fmtW _
  exact ⟨by simp [encode, decodeRow, decodeCop1], packI_zero_branch _ _ false _⟩

theorem bc1t (offset : BitVec 16) : Statement (.bc1t offset) := by
  intro fmtW _
  exact ⟨by simp [encode, decodeRow, decodeCop1], packI_zero_branch _ _ true _⟩

theorem mfc2 (rt : Reg) (rd : Reg) : Statement (.mfc2 rt rd) := by
  intro fmtW _
  exact ⟨by simp [encode, decodeRow, decodeCop2], packR_zero_sh_fn _ _ _ _⟩

theorem cfc2 (rt : Reg) (rd : Reg) : Statement (.cfc2 rt rd) := by
  intro fmtW _
  exact ⟨by simp [encode, decodeRow, decodeCop2], packR_zero_sh_fn _ _ _ _⟩

theorem mtc2 (rt : Reg) (rd : Reg) : Statement (.mtc2 rt rd) := by
  intro fmtW _
  exact ⟨by simp [encode, decodeRow, decodeCop2], packR_zero_sh_fn _ _ _ _⟩

theorem ctc2 (rt : Reg) (rd : Reg) : Statement (.ctc2 rt rd) := by
  intro fmtW _
  exact ⟨by simp [encode, decodeRow, decodeCop2], packR_zero_sh_fn _ _ _ _⟩

theorem bc2f (offset : BitVec 16) : Statement (.bc2f offset) := by
  intro fmtW _
  exact ⟨by simp [encode, decodeRow, decodeCop2], packI_zero_branch _ _ false _⟩

theorem bc2t (offset : BitVec 16) : Statement (.bc2t offset) := by
  intro fmtW _
  exact ⟨by simp [encode, decodeRow, decodeCop2], packI_zero_branch _ _ true _⟩

theorem mfc3 (rt : Reg) (rd : Reg) : Statement (.mfc3 rt rd) := by
  intro fmtW _
  exact ⟨by simp [encode, decodeRow, decodeCop3], packR_zero_sh_fn _ _ _ _⟩

theorem cfc3 (rt : Reg) (rd : Reg) : Statement (.cfc3 rt rd) := by
  intro fmtW _
  exact ⟨by simp [encode, decodeRow, decodeCop3], packR_zero_sh_fn _ _ _ _⟩

theorem mtc3 (rt : Reg) (rd : Reg) : Statement (.mtc3 rt rd) := by
  intro fmtW _
  exact ⟨by simp [encode, decodeRow, decodeCop3], packR_zero_sh_fn _ _ _ _⟩

theorem ctc3 (rt : Reg) (rd : Reg) : Statement (.ctc3 rt rd) := by
  intro fmtW _
  exact ⟨by simp [encode, decodeRow, decodeCop3], packR_zero_sh_fn _ _ _ _⟩

theorem bc3f (offset : BitVec 16) : Statement (.bc3f offset) := by
  intro fmtW _
  exact ⟨by simp [encode, decodeRow, decodeCop3], packI_zero_branch _ _ false _⟩

theorem bc3t (offset : BitVec 16) : Statement (.bc3t offset) := by
  intro fmtW _
  exact ⟨by simp [encode, decodeRow, decodeCop3], packI_zero_branch _ _ true _⟩

theorem tlbr : Statement (.tlbr) := by
  intro fmtW _
  refine ⟨by simp [encode, decodeRow, decodeCop0, decodeCp0], ?_⟩
  change packR 0x10 16 0 0 0 0x1 &&& 0x1FFFE0 = 0
  decide

theorem tlbwi : Statement (.tlbwi) := by
  intro fmtW _
  refine ⟨by simp [encode, decodeRow, decodeCop0, decodeCp0], ?_⟩
  change packR 0x10 16 0 0 0 0x2 &&& 0x1FFFE0 = 0
  decide

theorem tlbwr : Statement (.tlbwr) := by
  intro fmtW _
  refine ⟨by simp [encode, decodeRow, decodeCop0, decodeCp0], ?_⟩
  change packR 0x10 16 0 0 0 0x6 &&& 0x1FFFE0 = 0
  decide

theorem tlbp : Statement (.tlbp) := by
  intro fmtW _
  refine ⟨by simp [encode, decodeRow, decodeCop0, decodeCp0], ?_⟩
  change packR 0x10 16 0 0 0 0x8 &&& 0x1FFFE0 = 0
  decide

theorem rfe : Statement (.rfe) := by
  intro fmtW _
  refine ⟨by simp [encode, decodeRow, decodeCop0, decodeCp0], ?_⟩
  change packR 0x10 16 0 0 0 0x10 &&& 0x1FFFE0 = 0
  decide

theorem cop2 (cofun : BitVec 25) : Statement (.cop2 cofun) := by
  intro fmtW _
  exact ⟨by simp [encode, decodeRow, decodeCop2], and_zero_mask _⟩

theorem cop3 (cofun : BitVec 25) : Statement (.cop3 cofun) := by
  intro fmtW _
  exact ⟨by simp [encode, decodeRow, decodeCop3], and_zero_mask _⟩

theorem absD (fd : Reg) (fs : Reg) : Statement (.absD fd fs) := by
  intro fmtW _
  exact ⟨by simp [encode, decodeRow, decodeCop1, decodeFpDouble], packR_zero_rt _ _ _ _ _⟩

theorem absS (fd : Reg) (fs : Reg) : Statement (.absS fd fs) := by
  intro fmtW _
  exact ⟨by simp [encode, decodeRow, decodeCop1, decodeFpSingle], packR_zero_rt _ _ _ _ _⟩

theorem addD (fd : Reg) (fs : Reg) (ft : Reg) : Statement (.addD fd fs ft) := by
  intro fmtW _
  exact ⟨by simp [encode, decodeRow, decodeCop1, decodeFpDouble], and_zero_mask _⟩

theorem addS (fd : Reg) (fs : Reg) (ft : Reg) : Statement (.addS fd fs ft) := by
  intro fmtW _
  exact ⟨by simp [encode, decodeRow, decodeCop1, decodeFpSingle], and_zero_mask _⟩

theorem cvtDS (fd : Reg) (fs : Reg) : Statement (.cvtDS fd fs) := by
  intro fmtW _
  exact ⟨by simp [encode, decodeRow, decodeCop1, decodeFpSingle], packR_zero_rt _ _ _ _ _⟩

theorem cvtDW (fd : Reg) (fs : Reg) : Statement (.cvtDW fd fs) := by
  intro fmtW h
  refine ⟨?_, packR_zero_rt _ _ _ _ _⟩
  obtain ⟨h0, h2, h4, h6, h8, h16, h17⟩ := h
  have n (k : Nat) (hk : k < 32) (hne : fmtW ≠ BitVec.ofNat 5 k) : fmtW.toNat ≠ k := fun e =>
    hne (by rw [← e]; simp)
  have := n 0 (by decide) h0
  have := n 2 (by decide) h2
  have := n 4 (by decide) h4
  have := n 6 (by decide) h6
  have := n 8 (by decide) h8
  have := n 16 (by decide) h16
  have := n 17 (by decide) h17
  simp only [encode, decodeRow, opOf_packR, decodeCop1, rsOf_packR]
  split <;> simp_all [decodeFpWord]

theorem cvtSD (fd : Reg) (fs : Reg) : Statement (.cvtSD fd fs) := by
  intro fmtW _
  exact ⟨by simp [encode, decodeRow, decodeCop1, decodeFpDouble], packR_zero_rt _ _ _ _ _⟩

theorem cvtSW (fd : Reg) (fs : Reg) : Statement (.cvtSW fd fs) := by
  intro fmtW h
  refine ⟨?_, packR_zero_rt _ _ _ _ _⟩
  obtain ⟨h0, h2, h4, h6, h8, h16, h17⟩ := h
  have n (k : Nat) (hk : k < 32) (hne : fmtW ≠ BitVec.ofNat 5 k) : fmtW.toNat ≠ k := fun e =>
    hne (by rw [← e]; simp)
  have := n 0 (by decide) h0
  have := n 2 (by decide) h2
  have := n 4 (by decide) h4
  have := n 6 (by decide) h6
  have := n 8 (by decide) h8
  have := n 16 (by decide) h16
  have := n 17 (by decide) h17
  simp only [encode, decodeRow, opOf_packR, decodeCop1, rsOf_packR]
  split <;> simp_all [decodeFpWord]

theorem cvtWD (fd : Reg) (fs : Reg) : Statement (.cvtWD fd fs) := by
  intro fmtW _
  exact ⟨by simp [encode, decodeRow, decodeCop1, decodeFpDouble], packR_zero_rt _ _ _ _ _⟩

theorem cvtWS (fd : Reg) (fs : Reg) : Statement (.cvtWS fd fs) := by
  intro fmtW _
  exact ⟨by simp [encode, decodeRow, decodeCop1, decodeFpSingle], packR_zero_rt _ _ _ _ _⟩

theorem divD (fd : Reg) (fs : Reg) (ft : Reg) : Statement (.divD fd fs ft) := by
  intro fmtW _
  exact ⟨by simp [encode, decodeRow, decodeCop1, decodeFpDouble], and_zero_mask _⟩

theorem divS (fd : Reg) (fs : Reg) (ft : Reg) : Statement (.divS fd fs ft) := by
  intro fmtW _
  exact ⟨by simp [encode, decodeRow, decodeCop1, decodeFpSingle], and_zero_mask _⟩

theorem movD (fd : Reg) (fs : Reg) : Statement (.movD fd fs) := by
  intro fmtW _
  exact ⟨by simp [encode, decodeRow, decodeCop1, decodeFpDouble], packR_zero_rt _ _ _ _ _⟩

theorem movS (fd : Reg) (fs : Reg) : Statement (.movS fd fs) := by
  intro fmtW _
  exact ⟨by simp [encode, decodeRow, decodeCop1, decodeFpSingle], packR_zero_rt _ _ _ _ _⟩

theorem mulD (fd : Reg) (fs : Reg) (ft : Reg) : Statement (.mulD fd fs ft) := by
  intro fmtW _
  exact ⟨by simp [encode, decodeRow, decodeCop1, decodeFpDouble], and_zero_mask _⟩

theorem mulS (fd : Reg) (fs : Reg) (ft : Reg) : Statement (.mulS fd fs ft) := by
  intro fmtW _
  exact ⟨by simp [encode, decodeRow, decodeCop1, decodeFpSingle], and_zero_mask _⟩

theorem negD (fd : Reg) (fs : Reg) : Statement (.negD fd fs) := by
  intro fmtW _
  exact ⟨by simp [encode, decodeRow, decodeCop1, decodeFpDouble], packR_zero_rt _ _ _ _ _⟩

theorem negS (fd : Reg) (fs : Reg) : Statement (.negS fd fs) := by
  intro fmtW _
  exact ⟨by simp [encode, decodeRow, decodeCop1, decodeFpSingle], packR_zero_rt _ _ _ _ _⟩

theorem subD (fd : Reg) (fs : Reg) (ft : Reg) : Statement (.subD fd fs ft) := by
  intro fmtW _
  exact ⟨by simp [encode, decodeRow, decodeCop1, decodeFpDouble], and_zero_mask _⟩

theorem subS (fd : Reg) (fs : Reg) (ft : Reg) : Statement (.subS fd fs ft) := by
  intro fmtW _
  exact ⟨by simp [encode, decodeRow, decodeCop1, decodeFpSingle], and_zero_mask _⟩

theorem cFS (fs : Reg) (ft : Reg) : Statement (.cFS fs ft) := by
  intro fmtW _
  exact ⟨by simp [encode, decodeRow, decodeCop1, decodeFpSingle], packR_zero_sh _ _ _ _ _⟩

theorem cFD (fs : Reg) (ft : Reg) : Statement (.cFD fs ft) := by
  intro fmtW _
  exact ⟨by simp [encode, decodeRow, decodeCop1, decodeFpDouble], packR_zero_sh _ _ _ _ _⟩

theorem cUnS (fs : Reg) (ft : Reg) : Statement (.cUnS fs ft) := by
  intro fmtW _
  exact ⟨by simp [encode, decodeRow, decodeCop1, decodeFpSingle], packR_zero_sh _ _ _ _ _⟩

theorem cUnD (fs : Reg) (ft : Reg) : Statement (.cUnD fs ft) := by
  intro fmtW _
  exact ⟨by simp [encode, decodeRow, decodeCop1, decodeFpDouble], packR_zero_sh _ _ _ _ _⟩

theorem cEqS (fs : Reg) (ft : Reg) : Statement (.cEqS fs ft) := by
  intro fmtW _
  exact ⟨by simp [encode, decodeRow, decodeCop1, decodeFpSingle], packR_zero_sh _ _ _ _ _⟩

theorem cEqD (fs : Reg) (ft : Reg) : Statement (.cEqD fs ft) := by
  intro fmtW _
  exact ⟨by simp [encode, decodeRow, decodeCop1, decodeFpDouble], packR_zero_sh _ _ _ _ _⟩

theorem cUeqS (fs : Reg) (ft : Reg) : Statement (.cUeqS fs ft) := by
  intro fmtW _
  exact ⟨by simp [encode, decodeRow, decodeCop1, decodeFpSingle], packR_zero_sh _ _ _ _ _⟩

theorem cUeqD (fs : Reg) (ft : Reg) : Statement (.cUeqD fs ft) := by
  intro fmtW _
  exact ⟨by simp [encode, decodeRow, decodeCop1, decodeFpDouble], packR_zero_sh _ _ _ _ _⟩

theorem cOltS (fs : Reg) (ft : Reg) : Statement (.cOltS fs ft) := by
  intro fmtW _
  exact ⟨by simp [encode, decodeRow, decodeCop1, decodeFpSingle], packR_zero_sh _ _ _ _ _⟩

theorem cOltD (fs : Reg) (ft : Reg) : Statement (.cOltD fs ft) := by
  intro fmtW _
  exact ⟨by simp [encode, decodeRow, decodeCop1, decodeFpDouble], packR_zero_sh _ _ _ _ _⟩

theorem cUltS (fs : Reg) (ft : Reg) : Statement (.cUltS fs ft) := by
  intro fmtW _
  exact ⟨by simp [encode, decodeRow, decodeCop1, decodeFpSingle], packR_zero_sh _ _ _ _ _⟩

theorem cUltD (fs : Reg) (ft : Reg) : Statement (.cUltD fs ft) := by
  intro fmtW _
  exact ⟨by simp [encode, decodeRow, decodeCop1, decodeFpDouble], packR_zero_sh _ _ _ _ _⟩

theorem cOleS (fs : Reg) (ft : Reg) : Statement (.cOleS fs ft) := by
  intro fmtW _
  exact ⟨by simp [encode, decodeRow, decodeCop1, decodeFpSingle], packR_zero_sh _ _ _ _ _⟩

theorem cOleD (fs : Reg) (ft : Reg) : Statement (.cOleD fs ft) := by
  intro fmtW _
  exact ⟨by simp [encode, decodeRow, decodeCop1, decodeFpDouble], packR_zero_sh _ _ _ _ _⟩

theorem cUleS (fs : Reg) (ft : Reg) : Statement (.cUleS fs ft) := by
  intro fmtW _
  exact ⟨by simp [encode, decodeRow, decodeCop1, decodeFpSingle], packR_zero_sh _ _ _ _ _⟩

theorem cUleD (fs : Reg) (ft : Reg) : Statement (.cUleD fs ft) := by
  intro fmtW _
  exact ⟨by simp [encode, decodeRow, decodeCop1, decodeFpDouble], packR_zero_sh _ _ _ _ _⟩

theorem cSfS (fs : Reg) (ft : Reg) : Statement (.cSfS fs ft) := by
  intro fmtW _
  exact ⟨by simp [encode, decodeRow, decodeCop1, decodeFpSingle], packR_zero_sh _ _ _ _ _⟩

theorem cSfD (fs : Reg) (ft : Reg) : Statement (.cSfD fs ft) := by
  intro fmtW _
  exact ⟨by simp [encode, decodeRow, decodeCop1, decodeFpDouble], packR_zero_sh _ _ _ _ _⟩

theorem cNgleS (fs : Reg) (ft : Reg) : Statement (.cNgleS fs ft) := by
  intro fmtW _
  exact ⟨by simp [encode, decodeRow, decodeCop1, decodeFpSingle], packR_zero_sh _ _ _ _ _⟩

theorem cNgleD (fs : Reg) (ft : Reg) : Statement (.cNgleD fs ft) := by
  intro fmtW _
  exact ⟨by simp [encode, decodeRow, decodeCop1, decodeFpDouble], packR_zero_sh _ _ _ _ _⟩

theorem cSeqS (fs : Reg) (ft : Reg) : Statement (.cSeqS fs ft) := by
  intro fmtW _
  exact ⟨by simp [encode, decodeRow, decodeCop1, decodeFpSingle], packR_zero_sh _ _ _ _ _⟩

theorem cSeqD (fs : Reg) (ft : Reg) : Statement (.cSeqD fs ft) := by
  intro fmtW _
  exact ⟨by simp [encode, decodeRow, decodeCop1, decodeFpDouble], packR_zero_sh _ _ _ _ _⟩

theorem cNglS (fs : Reg) (ft : Reg) : Statement (.cNglS fs ft) := by
  intro fmtW _
  exact ⟨by simp [encode, decodeRow, decodeCop1, decodeFpSingle], packR_zero_sh _ _ _ _ _⟩

theorem cNglD (fs : Reg) (ft : Reg) : Statement (.cNglD fs ft) := by
  intro fmtW _
  exact ⟨by simp [encode, decodeRow, decodeCop1, decodeFpDouble], packR_zero_sh _ _ _ _ _⟩

theorem cLtS (fs : Reg) (ft : Reg) : Statement (.cLtS fs ft) := by
  intro fmtW _
  exact ⟨by simp [encode, decodeRow, decodeCop1, decodeFpSingle], packR_zero_sh _ _ _ _ _⟩

theorem cLtD (fs : Reg) (ft : Reg) : Statement (.cLtD fs ft) := by
  intro fmtW _
  exact ⟨by simp [encode, decodeRow, decodeCop1, decodeFpDouble], packR_zero_sh _ _ _ _ _⟩

theorem cNgeS (fs : Reg) (ft : Reg) : Statement (.cNgeS fs ft) := by
  intro fmtW _
  exact ⟨by simp [encode, decodeRow, decodeCop1, decodeFpSingle], packR_zero_sh _ _ _ _ _⟩

theorem cNgeD (fs : Reg) (ft : Reg) : Statement (.cNgeD fs ft) := by
  intro fmtW _
  exact ⟨by simp [encode, decodeRow, decodeCop1, decodeFpDouble], packR_zero_sh _ _ _ _ _⟩

theorem cLeS (fs : Reg) (ft : Reg) : Statement (.cLeS fs ft) := by
  intro fmtW _
  exact ⟨by simp [encode, decodeRow, decodeCop1, decodeFpSingle], packR_zero_sh _ _ _ _ _⟩

theorem cLeD (fs : Reg) (ft : Reg) : Statement (.cLeD fs ft) := by
  intro fmtW _
  exact ⟨by simp [encode, decodeRow, decodeCop1, decodeFpDouble], packR_zero_sh _ _ _ _ _⟩

theorem cNgtS (fs : Reg) (ft : Reg) : Statement (.cNgtS fs ft) := by
  intro fmtW _
  exact ⟨by simp [encode, decodeRow, decodeCop1, decodeFpSingle], packR_zero_sh _ _ _ _ _⟩

theorem cNgtD (fs : Reg) (ft : Reg) : Statement (.cNgtD fs ft) := by
  intro fmtW _
  exact ⟨by simp [encode, decodeRow, decodeCop1, decodeFpDouble], packR_zero_sh _ _ _ _ _⟩

end Sys2Proof.Laws.RoundTrip
end

