-- ==== Sys2Proof/Tests/Slice0.lean ====
section
/-! SUPPORT. The model's own tests: decoding from words of the opcode table, the well-formedness checks, single
steps of the spec's vectors (`95_test_vectors.md`), and for every statement with hypotheses a state and operands
that meet them (theorems named `test_witness_…`). -/

open Sys2Proof Sys2Proof.Machine

set_option maxRecDepth 20000
set_option exponentiation.threshold 2000

namespace Sys2Proof.Tests

/-- A part of the next state, if there is one. -/
def look {α : Type} (r : Result) (g : State → α) : Option α :=
  match r with
  | .next t => some (g t)
  | .fault _ => none
  | .refused _ => none

/-- The refusal, if there is one. -/
def refusal : Result → Option Refusal
  | .refused r => some r
  | .next _ => none
  | .fault _ => none

/-- The fault, if there is one. -/
def faulted : Result → Option Fault
  | .fault r => some r
  | .next _ => none
  | .refused _ => none

/-- A result with a next state. -/
def answers (r : Result) : Bool := (look r fun _ => ()).isSome

theorem exists_of_answers {r : Result} (h : answers r = true) : ∃ t, r = .next t := by
  cases r with
  | next t => exact ⟨t, rfl⟩
  | fault _ => cases h
  | refused _ => cases h

/-- The `fault` model at 0x00400000, the launch of the spec's vectors. -/
def flat : State := State.launch Config.atReset 0x00400000 []

/-- Kernel mode with every coprocessor present and usable. -/
def kernel : State :=
  { State.reset with
    status := 0xF0400000
    cfg := { Config.atReset with cop2Present := true, cop3Present := true } }

/-- User mode, one page mapped writable at 0x1000, all coprocessors unusable. -/
def user : State :=
  { State.reset with
    status := 0x00400002
    pc := 0x00001000
    tlb := [⟨0x00001000, 0x00001600⟩] }

/-- A load into register 1 has just completed, under `LOAD_DELAY`. -/
def pendingLoad : State :=
  { flat with
    cfg := { flat.cfg with loadDelay := true }
    loadPending := .gpr 1 }

/-- A compare has just completed, and an `mflo` one instruction before it, under both hazard parameters. -/
def hazardous : State :=
  { flat with
    cfg := { flat.cfg with loadDelay := true, hiloHazard := true }
    hiloAge := 1
    fccFresh := true }

/-- Two general registers set. -/
def withX (s : State) (a b : Word) : State := (s.setX 1 a).setX 2 b

/-- Bytes of memory from an address, ascending. -/
def withBytes (s : State) (a : Nat) (bytes : List Byte) : State :=
  { s with mem := Memory.writeCells s.mem (cellsAt a bytes) }

/-- The memory and registers of the spec's load and store vectors, in a byte order. -/
def vectors (be : Bool) : State :=
  withBytes (withX { flat with cfg := { flat.cfg with bigEndian := be } } 0x10010000 0xAABBCCDD) 0x10010000
    [0x80, 0x81, 0x82, 0x83, 4, 5, 6, 7]

/-- The eight bytes after a store. -/
def bytesAfter (r : Result) : Option (List Byte) :=
  look r fun t => (List.range 8).map fun i => t.byteAt (0x10010000 + i)

/-! ## Decoding -/

/-- Words with every operand field set, written from the rows of the opcode table. -/
theorem test_decode_arithmetic : ∀ p ∈ ([
    (0x00221820, .add 3 1 2),
    (0x00221821, .addu 3 1 2),
    (0x00221824, .and 3 1 2),
    (0x00221827, .nor 3 1 2),
    (0x00221825, .or 3 1 2),
    (0x00221822, .sub 3 1 2),
    (0x00221823, .subu 3 1 2),
    (0x00221826, .xor 3 1 2),
    (0x00221804, .sllv 3 2 1),
    (0x00221807, .srav 3 2 1),
    (0x00221806, .srlv 3 2 1),
    (0x00021900, .sll 3 2 4),
    (0x00021903, .sra 3 2 4),
    (0x00021902, .srl 3 2 4)] : List (Word × Instr)),
    decode Config.atReset p.1 = .instr p.2 := by decide

/-- Words with every operand field set, written from the rows of the opcode table. -/
theorem test_decode_multiply_and_move : ∀ p ∈ ([
    (0x0022001A, .div 1 2),
    (0x0022001B, .divu 1 2),
    (0x00220018, .mult 1 2),
    (0x00220019, .multu 1 2),
    (0x00200011, .mthi 1),
    (0x00200013, .mtlo 1),
    (0x00001810, .mfhi 3),
    (0x00001812, .mflo 3)] : List (Word × Instr)),
    decode Config.atReset p.1 = .instr p.2 := by decide

/-- Words with every operand field set, written from the rows of the opcode table. -/
theorem test_decode_immediate : ∀ p ∈ ([
    (0x20228001, .addi 2 1 0x8001),
    (0x24228001, .addiu 2 1 0x8001),
    (0x30228001, .andi 2 1 0x8001),
    (0x34228001, .ori 2 1 0x8001),
    (0x38228001, .xori 2 1 0x8001),
    (0x3C028001, .lui 2 0x8001),
    (0x28228001, .slti 2 1 0x8001),
    (0x2C228001, .sltiu 2 1 0x8001),
    (0x0022182A, .slt 3 1 2),
    (0x0022182B, .sltu 3 1 2)] : List (Word × Instr)),
    decode Config.atReset p.1 = .instr p.2 := by decide

/-- Words with every operand field set, written from the rows of the opcode table. -/
theorem test_decode_branch : ∀ p ∈ ([
    (0x1022FFFC, .beq 1 2 0xFFFC),
    (0x1422FFFC, .bne 1 2 0xFFFC),
    (0x1820FFFC, .blez 1 0xFFFC),
    (0x1C20FFFC, .bgtz 1 0xFFFC),
    (0x0420FFFC, .bltz 1 0xFFFC),
    (0x0421FFFC, .bgez 1 0xFFFC),
    (0x0430FFFC, .bltzal 1 0xFFFC),
    (0x0431FFFC, .bgezal 1 0xFFFC)] : List (Word × Instr)),
    decode Config.atReset p.1 = .instr p.2 := by decide

/-- Words with every operand field set, written from the rows of the opcode table. -/
theorem test_decode_jump_and_system : ∀ p ∈ ([
    (0x08123456, .j 0x123456),
    (0x0C123456, .jal 0x123456),
    (0x00200008, .jr 1),
    (0x00201809, .jalr 1 3),
    (0x02AF378C, .syscall 0xABCDE),
    (0x02AF378D, .brk 0xABCDE)] : List (Word × Instr)),
    decode Config.atReset p.1 = .instr p.2 := by decide

/-- Words with every operand field set, written from the rows of the opcode table. -/
theorem test_decode_load : ∀ p ∈ ([
    (0x80A2FFFC, .lb 2 5 0xFFFC),
    (0x90A2FFFC, .lbu 2 5 0xFFFC),
    (0x84A2FFFC, .lh 2 5 0xFFFC),
    (0x94A2FFFC, .lhu 2 5 0xFFFC),
    (0x8CA2FFFC, .lw 2 5 0xFFFC),
    (0x88A2FFFC, .lwl 2 5 0xFFFC),
    (0x98A2FFFC, .lwr 2 5 0xFFFC),
    (0xC0A2FFFC, .lwc0 2 5 0xFFFC),
    (0xC4A2FFFC, .lwc1 2 5 0xFFFC),
    (0xC8A2FFFC, .lwc2 2 5 0xFFFC),
    (0xCCA2FFFC, .lwc3 2 5 0xFFFC)] : List (Word × Instr)),
    decode Config.atReset p.1 = .instr p.2 := by decide

/-- Words with every operand field set, written from the rows of the opcode table. -/
theorem test_decode_store : ∀ p ∈ ([
    (0xA0A2FFFC, .sb 2 5 0xFFFC),
    (0xA4A2FFFC, .sh 2 5 0xFFFC),
    (0xACA2FFFC, .sw 2 5 0xFFFC),
    (0xA8A2FFFC, .swl 2 5 0xFFFC),
    (0xB8A2FFFC, .swr 2 5 0xFFFC),
    (0xE0A2FFFC, .swc0 2 5 0xFFFC),
    (0xE4A2FFFC, .swc1 2 5 0xFFFC),
    (0xE8A2FFFC, .swc2 2 5 0xFFFC),
    (0xECA2FFFC, .swc3 2 5 0xFFFC)] : List (Word × Instr)),
    decode Config.atReset p.1 = .instr p.2 := by decide

/-- Words with every operand field set, written from the rows of the opcode table. -/
theorem test_decode_coprocessor_move : ∀ p ∈ ([
    (0x40021800, .mfc0 2 3),
    (0x40421800, .cfc0 2 3),
    (0x40821800, .mtc0 2 3),
    (0x40C21800, .ctc0 2 3),
    (0x44021800, .mfc1 2 3),
    (0x44421800, .cfc1 2 3),
    (0x44821800, .mtc1 2 3),
    (0x44C21800, .ctc1 2 3),
    (0x48021800, .mfc2 2 3),
    (0x48421800, .cfc2 2 3),
    (0x48821800, .mtc2 2 3),
    (0x48C21800, .ctc2 2 3),
    (0x4C021800, .mfc3 2 3),
    (0x4C421800, .cfc3 2 3),
    (0x4C821800, .mtc3 2 3),
    (0x4CC21800, .ctc3 2 3)] : List (Word × Instr)),
    decode Config.atReset p.1 = .instr p.2 := by decide

/-- Words with every operand field set, written from the rows of the opcode table. -/
theorem test_decode_coprocessor_branch : ∀ p ∈ ([
    (0x4100FFFC, .bc0f 0xFFFC),
    (0x4101FFFC, .bc0t 0xFFFC),
    (0x4500FFFC, .bc1f 0xFFFC),
    (0x4501FFFC, .bc1t 0xFFFC),
    (0x4900FFFC, .bc2f 0xFFFC),
    (0x4901FFFC, .bc2t 0xFFFC),
    (0x4D00FFFC, .bc3f 0xFFFC),
    (0x4D01FFFC, .bc3t 0xFFFC)] : List (Word × Instr)),
    decode Config.atReset p.1 = .instr p.2 := by decide

/-- Words with every operand field set, written from the rows of the opcode table. -/
theorem test_decode_coprocessor_zero : ∀ p ∈ ([
    (0x42000001, .tlbr),
    (0x42000002, .tlbwi),
    (0x42000006, .tlbwr),
    (0x42000008, .tlbp),
    (0x42000010, .rfe),
    (0x4B234567, .cop2 0x1234567),
    (0x4F234567, .cop3 0x1234567)] : List (Word × Instr)),
    decode Config.atReset p.1 = .instr p.2 := by decide

/-- Words with every operand field set, written from the rows of the opcode table. -/
theorem test_decode_float_arithmetic : ∀ p ∈ ([
    (0x46202085, .absD 2 4),
    (0x46002085, .absS 2 4),
    (0x46262080, .addD 2 4 6),
    (0x46062080, .addS 2 4 6),
    (0x460020A1, .cvtDS 2 4),
    (0x468020A1, .cvtDW 2 4),
    (0x462020A0, .cvtSD 2 4),
    (0x468020A0, .cvtSW 2 4),
    (0x462020A4, .cvtWD 2 4),
    (0x460020A4, .cvtWS 2 4),
    (0x46262083, .divD 2 4 6),
    (0x46062083, .divS 2 4 6),
    (0x46202086, .movD 2 4),
    (0x46002086, .movS 2 4),
    (0x46262082, .mulD 2 4 6),
    (0x46062082, .mulS 2 4 6),
    (0x46202087, .negD 2 4),
    (0x46002087, .negS 2 4),
    (0x46262081, .subD 2 4 6),
    (0x46062081, .subS 2 4 6)] : List (Word × Instr)),
    decode Config.atReset p.1 = .instr p.2 := by decide

/-- Words with every operand field set, written from the rows of the opcode table. -/
theorem test_decode_compare_single : ∀ p ∈ ([
    (0x46062030, .cFS 4 6),
    (0x46062031, .cUnS 4 6),
    (0x46062032, .cEqS 4 6),
    (0x46062033, .cUeqS 4 6),
    (0x46062034, .cOltS 4 6),
    (0x46062035, .cUltS 4 6),
    (0x46062036, .cOleS 4 6),
    (0x46062037, .cUleS 4 6),
    (0x46062038, .cSfS 4 6),
    (0x46062039, .cNgleS 4 6),
    (0x4606203A, .cSeqS 4 6),
    (0x4606203B, .cNglS 4 6),
    (0x4606203C, .cLtS 4 6),
    (0x4606203D, .cNgeS 4 6),
    (0x4606203E, .cLeS 4 6),
    (0x4606203F, .cNgtS 4 6)] : List (Word × Instr)),
    decode Config.atReset p.1 = .instr p.2 := by decide

/-- Words with every operand field set, written from the rows of the opcode table. -/
theorem test_decode_compare_double : ∀ p ∈ ([
    (0x46262030, .cFD 4 6),
    (0x46262031, .cUnD 4 6),
    (0x46262032, .cEqD 4 6),
    (0x46262033, .cUeqD 4 6),
    (0x46262034, .cOltD 4 6),
    (0x46262035, .cUltD 4 6),
    (0x46262036, .cOleD 4 6),
    (0x46262037, .cUleD 4 6),
    (0x46262038, .cSfD 4 6),
    (0x46262039, .cNgleD 4 6),
    (0x4626203A, .cSeqD 4 6),
    (0x4626203B, .cNglD 4 6),
    (0x4626203C, .cLtD 4 6),
    (0x4626203D, .cNgeD 4 6),
    (0x4626203E, .cLeD 4 6),
    (0x4626203F, .cNgtD 4 6)] : List (Word × Instr)),
    decode Config.atReset p.1 = .instr p.2 := by decide

/-- Blank cells of the opcode map (95_test_vectors.md part 3). -/
theorem test_decode_reserved :
    decode Config.atReset 0x00000001 = .reserved none ∧
    decode Config.atReset 0x00000028 = .reserved none ∧
    decode Config.atReset 0x041F0000 = .reserved none ∧
    decode Config.atReset 0x50000000 = .reserved none ∧
    decode Config.atReset 0xBC000000 = .reserved none ∧
    decode Config.atReset 0xFC000000 = .reserved none ∧
    decode Config.atReset 0x42200000 = .reserved (some 0) ∧
    decode Config.atReset 0x44200000 = .reserved (some 1) ∧
    decode Config.atReset 0x46000004 = .reserved (some 1) ∧
    decode Config.atReset 0x46400000 = .reserved (some 1) ∧
    decode Config.atReset 0x46800000 = .reserved (some 1) ∧
    decode Config.atReset 0x46800024 = .reserved (some 1) := by decide

/-- Should-be-zero bits set (95_test_vectors.md part 3). -/
theorem test_decode_should_be_zero : ∀ p ∈ ([
    (0x00221860, .add 3 1 2), (0x00220058, .mult 1 2), (0x00200408, .jr 1), (0x18210004, .blez 1 4),
    (0x3C200001, .lui 0 1), (0x42000021, .tlbr), (0x44022001, .mfc1 2 4), (0x45020004, .bc1f 4),
    (0x46012085, .absS 2 4), (0x46062072, .cEqS 4 6)] : List (Word × Instr)),
    decode Config.atReset p.1 = .nonZeroSbz p.2 := by decide

theorem test_decode_ignored_bits : decode Config.atReset 0x00200000 = .instr (.sll 0 0 0) := by decide

theorem test_table_word : decodeTableWord 32 0x00221820 = some (.add 3 1 2) := by decide

theorem test_placed_word_is_fetched :
    look (step (State.reset.withFetchWord 32 0x3C017FFF)) (fun t => (t.x 1, t.pc)) =
      some (0x7FFF0000, 0xBFC00004) := by decide

/-! ## Well-formedness: an ill-formed term for each check -/

theorem test_wellFormed_accepts : Instr.wellFormed (.addD 2 4 6) = true := by decide
theorem test_wellFormed_odd_double : Instr.wellFormed (.addD 2 5 6) = false := by decide
theorem test_wellFormed_jalr : Instr.wellFormed (.jalr 1 1) = false := by decide
theorem test_wellFormed_bltzal : Instr.wellFormed (.bltzal 31 4) = false := by decide
theorem test_wellFormed_bgezal : Instr.wellFormed (.bgezal 31 4) = false := by decide
theorem test_wellFormed_cfc1 : Instr.wellFormed (.cfc1 2 5) = false := by decide
theorem test_wellFormed_ctc1 : Instr.wellFormed (.ctc1 2 0) = false := by decide
theorem test_wellFormed_mfc0 : Instr.wellFormed (.mfc0 2 3) = false := by decide
theorem test_wellFormed_mtc0 : Instr.wellFormed (.mtc0 2 31) = false := by decide

/-! ## Single steps (95_test_vectors.md part 2) -/

theorem test_add : look (exec (.add 3 1 2) (withX flat 0xFFFFFFFF 1)) (·.x 3) = some 0 := by decide
theorem test_add_overflow :
    look (exec (.add 0 1 2) (withX flat 0x7FFFFFFF 1)) (fun t => (t.outcome, t.pc)) =
      some (.stopped .overflow, 0x00400000) := by decide
theorem test_addiu : look (exec (.addiu 2 1 0x8000) (withX flat 0 0)) (·.x 2) = some 0xFFFF8000 := by decide
theorem test_subu : look (exec (.subu 3 1 2) (withX flat 0 1)) (·.x 3) = some 0xFFFFFFFF := by decide
theorem test_ori : look (exec (.ori 2 1 0x8001) (withX flat 0x12340000 0)) (·.x 2) = some 0x12348001 := by
  decide
theorem test_nor : look (exec (.nor 3 1 2) (withX flat 0xF0F0A5A5 0x0FF0FF00)) (·.x 3) = some 0x000F005A := by
  decide
theorem test_sra : look (exec (.sra 3 2 4) (withX flat 0 0x80000001)) (·.x 3) = some 0xF8000000 := by decide
theorem test_srlv : look (exec (.srlv 3 2 1) (withX flat 0x24 0x80000001)) (·.x 3) = some 0x08000000 := by
  decide
theorem test_mult : look (exec (.mult 1 2) (withX flat 0x12345678 0x100)) (fun t => (t.hi, t.lo)) =
    some (0x12, 0x34567800) := by decide
theorem test_multu : look (exec (.multu 1 2) (withX flat 0xFFFFFFFF 0xFFFFFFFF)) (fun t => (t.hi, t.lo)) =
    some (0xFFFFFFFE, 1) := by decide
theorem test_div_truncates : look (exec (.div 1 2) (withX flat 0xFFFFFFF9 2)) (fun t => (t.hi, t.lo)) =
    some (0xFFFFFFFF, 0xFFFFFFFD) := by decide
theorem test_div_most_negative : look (exec (.div 1 2) (withX flat 0x80000000 0xFFFFFFFF))
    (fun t => (t.hi, t.lo)) = some (0, 0x80000000) := by decide
theorem test_lui : look (exec (.lui 1 0x1234) (withX flat 0xFFFFFFFF 0)) (·.x 1) = some 0x12340000 := by decide
theorem test_slti : look (exec (.slti 2 1 0xFFFF) (withX flat 0xFFFFFFFE 0)) (·.x 2) = some 1 := by decide
theorem test_sltiu : look (exec (.sltiu 2 1 0x8000) (withX flat 0x7FFFFFFF 0)) (·.x 2) = some 1 := by decide
theorem test_beq_backwards : look (exec (.beq 1 2 0x8000) (withX flat 5 5)) (·.pc) = some 0x003E0004 := by
  decide
theorem test_bne_in_slots :
    look (exec (.bne 1 2 0xFFFE) (withX { flat with cfg := { flat.cfg with delaySlots := true } } 5 6))
      (fun t => (t.pc, t.npc, t.inDelay)) = some (0x00400004, 0x003FFFFC, true) := by decide
theorem test_bltzal_links_untaken : look (exec (.bltzal 1 4) (withX flat 0 0)) (fun t => (t.pc, t.x 31)) =
    some (0x00400004, 0x00400004) := by decide
theorem test_j_region : look (exec (.j 0x10) { flat with pc := 0x0FFFFFFC }) (·.pc) = some 0x10000040 := by
  decide
theorem test_jalr : look (exec (.jalr 1 2) (withX flat 0x00400200 0)) (fun t => (t.pc, t.x 2)) =
    some (0x00400200, 0x00400004) := by decide
theorem test_jr_misaligned_fetch :
    look (step (withX { flat with pc := 0x00400002 } 0 0)) (·.outcome) =
      some (.stopped (.addressErrorLoad 0x00400002)) := by decide
theorem test_lw_orders : look (exec (.lw 2 1 4) (vectors true)) (·.x 2) = some 0x04050607 ∧
    look (exec (.lw 2 1 4) (vectors false)) (·.x 2) = some 0x07060504 := by decide
theorem test_lh : look (exec (.lh 2 1 2) (vectors true)) (·.x 2) = some 0xFFFF8283 := by decide
theorem test_lbu : look (exec (.lbu 2 1 1) (vectors false)) (·.x 2) = some 0x81 := by decide
theorem test_lwl : look (exec (.lwl 2 1 1) (vectors true)) (·.x 2) = some 0x818283DD ∧
    look (exec (.lwl 2 1 1) (vectors false)) (·.x 2) = some 0x8180CCDD := by decide
theorem test_lwr : look (exec (.lwr 2 1 1) (vectors true)) (·.x 2) = some 0xAABB8081 ∧
    look (exec (.lwr 2 1 1) (vectors false)) (·.x 2) = some 0xAA838281 := by decide
theorem test_sh : bytesAfter (exec (.sh 2 1 2) (vectors true)) =
    some [0x80, 0x81, 0xCC, 0xDD, 4, 5, 6, 7] := by decide
theorem test_sw_misaligned : look (exec (.sw 2 1 2) (vectors true)) (·.outcome) =
    some (.stopped (.addressErrorStore 0x10010002)) := by decide
theorem test_swl : bytesAfter (exec (.swl 2 1 1) (vectors true)) = some [0x80, 0xAA, 0xBB, 0xCC, 4, 5, 6, 7] ∧
    bytesAfter (exec (.swl 2 1 1) (vectors false)) = some [0xBB, 0xAA, 0x82, 0x83, 4, 5, 6, 7] := by decide
theorem test_swr : bytesAfter (exec (.swr 2 1 1) (vectors true)) = some [0xCC, 0xDD, 0x82, 0x83, 4, 5, 6, 7] ∧
    bytesAfter (exec (.swr 2 1 1) (vectors false)) = some [0x80, 0xDD, 0xCC, 0xBB, 4, 5, 6, 7] := by decide
theorem test_ctc1 : look (exec (.ctc1 2 31) (withX flat 0 0x00800001)) (fun t => (t.rm, t.fcc)) =
    some (1, true) := by decide
theorem test_ctc1_enable : refusal (exec (.ctc1 2 31) (withX flat 0 0x80)) = some .fpControlRegister := by
  decide
theorem test_mfc0_status : look (exec (.mfc0 2 12) kernel) (·.x 2) = some 0xF0400000 := by decide
theorem test_mfc0_in_fault_model : refusal (step (flat.withFetchWord 32 0x40026000)) =
    some .cop0InFaultModel := by decide
theorem test_add_s_tie : look (exec (.addS 2 4 6) ((flat.setF 4 0x4B800000).setF 6 0x3F800000)) (·.f 2) =
    some 0x4B800000 := by decide
theorem test_div_s : look (exec (.divS 2 4 6) ((flat.setF 4 0x3FC00000).setF 6 0x40100000)) (·.f 2) =
    some 0x3F2AAAAB := by decide
theorem test_mul_s_subnormal : look (exec (.mulS 2 4 6) ((flat.setF 4 0x00800000).setF 6 0x3F000000)) (·.f 2) =
    some 0x00400000 := by decide
theorem test_cvt_s_w : look (exec (.cvtSW 2 4) (flat.setF 4 0x01000003)) (·.f 2) = some 0x4B800002 := by decide
theorem test_cvt_w_s : look (exec (.cvtWS 2 4) (flat.setF 4 0xC0200000)) (·.f 2) = some 0xFFFFFFFE := by decide
theorem test_compare_unordered : look (exec (.cUltS 4 6) ((flat.setF 4 0x7FC00000).setF 6 0x3F800000)) (·.fcc) =
    some true := by decide
theorem test_syscall_entry :
    look (exec (.syscall 0) { kernel with pc := 0x00400010, status := 0x00000003 })
      (fun t => (t.epc, t.status, t.pc)) = some (0x00400010, 0x0000000C, 0x80000080) := by decide
theorem test_syscall_in_slot :
    look (exec (.syscall 0) { kernel with
      cfg := { kernel.cfg with delaySlots := true }, pc := 0x00400014, inDelay := true })
      (fun t => (t.epc, t.pc, t.npc)) = some (0x00400010, 0xBFC00180, 0xBFC00184) := by decide
theorem test_cause_entry : ∀ ce : CopNum, (causeEntry 0xFFFFFFFF true ce 8).extractLsb' 2 5 = 8 ∧
    (causeEntry 0xFFFFFFFF true ce 8).getLsbD 31 = true ∧ (causeEntry 0x300 false ce 8).extractLsb' 8 2 = 3 := by
  decide
theorem test_rfe : look (exec .rfe { kernel with status := 0xF0400034 }) (·.status) = some 0xF040003D := by
  decide
theorem test_tlbp_miss : look (exec .tlbp kernel) (·.index) = some 0x80000000 := by decide
theorem test_tlbwi : look (exec .tlbwi { kernel with entryHi := 0x5040, entryLo := 0x7700, index := 0x300 })
    (·.tlb[3]?) = some (some ⟨0x5040, 0x7700⟩) := by decide

/-! ## The hypotheses of the statements can be met -/

theorem test_witness_DecodeOfEncode : Config.fmtWFree Config.atReset.fmtW := by decide

theorem test_witness_EncodeOfDecode : Config.atReset.sbzPolicy = .refuse ∧
    decode Config.atReset 0x00221820 = .instr (.add 3 1 2) ∧
    decode Config.atReset 0x00200000 = .instr (.sll 0 0 0) := by decide

theorem test_witness_ReservedEncodings :
    (17 < flat.cfg.fmtW.toNat ∧ (flat.withFetchWord 32 0x50000000).ready 0x50000000 ∧
      ∀ z : CopNum, (opOf 0x50000000).toNat = 16 + z.toNat → flat.gate z = none) ∧
    unassigned flat.cfg.fmtW.toNat 0x50000000 ∧ unassigned flat.cfg.fmtW.toNat 0xFC000000 := by
  refine ⟨by unfold State.ready; decide, Or.inl (by decide), ?_⟩
  exact .inr (.inr (.inr (.inr (.inr (.inr (.inl (by decide)))))))

theorem test_witness_StepRunsDecoded :
    ((flat.withFetchWord 32 0x00221820).ready 0x00221820 ∧
      decode flat.cfg 0x00221820 = .instr (.add 3 1 2) ∧ flat.hazard (.add 3 1 2) = none) ∧
    (let s := pendingLoad.withFetchWord 32 0x00221820;
      s.ready 0x00221820 ∧ s.decodeStop (.add 3 1 2) = none ∧
        s.hazard (.add 3 1 2) = some .loadUseHazard) := by
  unfold State.ready; decide

/-- Under `ignore` a word with should-be-zero bits and the word without them; under `refuse` the word with them;
the first and the last bit of a field of R99's table, and the bits beside it. -/
theorem test_witness_ShouldBeZero :
    (let c : Config := { Config.atReset with sbzPolicy := .ignore };
      decodeRow c.fmtW 0x00221860 = some (.add 3 1 2) ∧ decode c 0x00221860 = .instr (.add 3 1 2) ∧
        (0x00221860 : Word) &&& ~~~(Instr.add 3 1 2).sbzMask = 0x00221820) ∧
    ((Instr.add 3 1 2).sbzMask.getLsbD 6 = true ∧ (Instr.add 3 1 2).sbzMask.getLsbD 10 = true ∧
      (Instr.add 3 1 2).sbzMask.getLsbD 5 = false ∧ (Instr.add 3 1 2).sbzMask.getLsbD 11 = false) ∧
    flat.cfg.sbzPolicy = .refuse ∧ (0x00221860 : Word) &&& (Instr.add 3 1 2).sbzMask ≠ 0 ∧
    (flat.withFetchWord 32 0x00221860).ready 0x00221860 ∧
    (flat.withFetchWord 32 0x00221860).decodeStop (.add 3 1 2) = none := by
  unfold State.ready; decide

theorem test_witness_CoprocessorTest :
    ((flat.withFetchWord 32 0x42000010).ready 0x42000010 ∧ (opOf 0x42000010).toNat = 16) ∧
    ((flat.withFetchWord 32 0xC0220000).ready 0xC0220000 ∧ (opOf 0xC0220000).toNat = 0x30) ∧
    ((kernel.withFetchWord 32 0xE0220000).ready 0xE0220000 ∧ (opOf 0xE0220000).toNat = 0x38) ∧
    ((flat.withFetchWord 32 0x48000000).ready 0x48000000 ∧ (opOf 0x48000000).toNat = 16 + (2 : CopNum).toNat ∧
      ¬usableBy flat 2) ∧
    ((user.withFetchWord 32 0x40026000).ready 0x40026000 ∧ ¬usableBy user 0) ∧
    ((State.reset.withFetchWord 32 0xEC220000).ready 0xEC220000 ∧ ¬usableBy State.reset 3) ∧
    ((State.reset.withFetchWord 32 0x46062080).ready 0x46062080 ∧ ¬usableBy State.reset 1) := by
  unfold State.ready usableBy; decide

theorem test_witness_RegisterZero_and_BitwiseLogic : (31 : Reg) ≠ 0 ∧ (0 : Reg) ≠ 31 := by decide

theorem test_witness_DoublePairs : kernel.gate 1 = none ∧ (5 : Reg) ∈ (Instr.addD 2 5 6).doubleRegs ∧
    (5 : Reg).toNat % 2 = 1 ∧ (0 : Reg) ≠ 2 ∧ (0 : Reg) ≠ 2 + 1 := by decide

theorem test_witness_OverflowDefinition :
    (let s := withX flat 0x7FFFFFFF 1;
      (s.x 1).msb = (s.x 2).msb ∧ (s.x 1 + s.x 2).msb ≠ (s.x 1).msb) ∧
    (let s := withX flat 0x80000000 1;
      (s.x 1).msb ≠ (s.x 2).msb ∧ (s.x 1 - s.x 2).msb ≠ (s.x 1).msb) ∧
    answers (flat.raise .overflow) = true ∧ answers (kernel.raise .overflow) = true := by decide

/-- The sums and differences at both ends of the range, and one beyond each. -/
theorem test_witness_TrappingArithmetic :
    (31 : Reg) ≠ 0 ∧ ((withX flat 0x7FFFFFFF 1).x 1).toInt + ((withX flat 0x7FFFFFFF 1).x 2).toInt = 2147483648 ∧
    ((withX flat 0x80000000 1).x 1).toInt - ((withX flat 0x80000000 1).x 2).toInt = -2147483649 ∧
    (let s := withX flat 0x7FFFFFFE 1;
      (s.x 1).toInt + (s.x 2).toInt = 2147483647 ∧ (s.x 1).toInt + (1 : BitVec 16).toInt = 2147483647) ∧
    (let s := withX flat 0x80000001 1;
      (s.x 1).toInt - (s.x 2).toInt = -2147483648 ∧ (s.x 1).toInt + (0xFFFF : BitVec 16).toInt = -2147483648) := by
  decide

theorem test_witness_Divide : (withX flat 5 0).x 2 = 0 ∧ (withX flat 0x80000000 0xFFFFFFFF).x 2 ≠ 0 ∧
    ((withX flat 0x80000000 0xFFFFFFFF).x 1).toInt = -2147483648 ∧
    ((withX flat 0x80000000 0xFFFFFFFF).x 2).toInt = -1 := by decide

theorem test_witness_BranchTarget : (0x00400000 : Word).toNat % 4 = 0 := by decide

theorem test_witness_JumpTarget : (0x0FFFFFFC : Word).toNat % 268435456 = 0xFFFFFFC ∧
    (0xFFFFFFFC : Word).toNat % 268435456 = 0xFFFFFFC ∧ (31 : Reg) ≠ 1 := by decide

theorem test_witness_LinkingBranches : (30 : Reg) ≠ 31 ∧ answers (exec (.bltzal 30 4) flat) = true ∧
    answers (exec (.bgezal 30 4) flat) = true := by decide

theorem test_witness_Jumps : (31 : Reg) ≠ 1 := by decide

/-- The coprocessor test passes in kernel mode, as the statements about coprocessor instructions ask. -/
theorem test_witness_CoprocessorBranches_and_CoprocessorMoves_and_ReturnFromException :
    kernel.gate 0 = none ∧ kernel.gate 1 = none ∧ kernel.gate 2 = none ∧
    kernel.gate 3 = none ∧ flat.gate 1 = none := by decide

theorem test_witness_AccessChecks :
    (0x1001 : Word).toNat % 2 ≠ 0 ∧
    (user.status.getLsbD 1 = true ∧ 2147483648 ≤ (0x80000000 : Word).toNat) ∧
    ((0x2000 : Word).toNat % 4 = 0 ∧
      user.physical 0x2000 .load = .error (.exc (.tlbLoad 0x2000 true))) ∧
    user.physical 0x1004 .load = .ok 0x1004 ∧ user.reach user.pc 4 .fetch = .ok 0x1000 := by decide

/-- Data accesses that fail: a user access to the first kernel address, no entry, an invalid entry, a page not
writable, two entries, and the first address past those admitted. -/
theorem test_witness_AccessChecks_data :
    (let s := user.setX 1 0x80000000;
      s.reach (s.ea 1 0) 1 .load = .error (.exc (.addressErrorLoad 0x80000000)) ∧
        s.reachPart false (s.ea 1 0) .store = .error (.exc (.addressErrorStore 0x80000000))) ∧
    user.reach (user.ea 0 2) 2 .load = .error (.exc (.tlbLoad 2 true)) ∧
    user.reachPart true (user.ea 0 3) .load = .error (.exc (.tlbLoad 3 true)) ∧
    (let s := { user with tlb := [⟨0x1000, 0x1400⟩] };
      s.reach (s.ea 0 0x1FFC) 4 .store = .error (.exc (.tlbStore 0x1FFC false))) ∧
    (let s := { user with tlb := [⟨0x1000, 0x1200⟩] };
      s.reach (s.ea 0 0x1FFE) 2 .store = .error (.exc (.tlbMod 0x1FFE)) ∧
        s.reachPart true (s.ea 0 0x1FFF) .store = .error (.exc (.tlbMod 0x1FFF))) ∧
    (let s := { user with tlb := [⟨0x1000, 0x1600⟩, ⟨0x1000, 0x2600⟩] };
      s.reach (s.ea 0 0x1000) 4 .load = .error (.fault .tlbMultipleMatch)) ∧
    (let s := { flat with cfg := { flat.cfg with memDomain := [⟨0, 0x1002⟩] } };
      s.reach (s.ea 0 0x1002) 1 .store = .error (.exc .busErrorData) ∧
        s.reach (s.ea 0 0x1000) 4 .store = .error (.exc .busErrorData) ∧ kernel.gate 1 = none) := by decide

/-- In both byte orders, a left or right access that touches only admitted bytes of its word, and one that touches
the first byte past them. -/
theorem test_witness_AccessChecks_part :
    (let s := { flat with cfg := { flat.cfg with bigEndian := true, memDomain := [⟨0, 0x1002⟩] } };
      s.physical (s.ea 0 0x1001) .load = .ok 0x1001 ∧ s.physical (s.ea 0 0x1002) .load = .ok 0x1002 ∧
        s.reachPart false (s.ea 0 0x1001) .load = .ok 0x1000 ∧
        s.reachPart false (s.ea 0 0x1002) .load = .error (.exc .busErrorData) ∧
        s.reachPart true (s.ea 0 0x1001) .store = .error (.exc .busErrorData)) ∧
    (let s := { flat with cfg := { flat.cfg with bigEndian := false, memDomain := [⟨0, 0x1002⟩] } };
      s.reachPart true (s.ea 0 0x1001) .load = .ok 0x1000 ∧
        s.reachPart true (s.ea 0 0x1002) .load = .error (.exc .busErrorData) ∧
        s.reachPart false (s.ea 0 0x1001) .store = .error (.exc .busErrorData)) ∧
    (0x1002 : Word).toNat / 4 * 4 + 2 = 0x1002 ∧ admits [⟨0, 0x1002⟩] 0x1001 = true ∧
    admits [⟨0, 0x1002⟩] 0x1002 = false := by decide

/-- A load and a store that raise: BadVAddr holds the address, `pc` the vector, and the register stays. -/
theorem test_access_raises :
    look (exec (.lw 2 0 4) (user.setX 2 7)) (fun t => (t.badVAddr, t.pc, t.x 2)) = some (4, 0xBFC00100, 7) ∧
    look (exec (.swr 2 0 0x1003) { user with tlb := [⟨0x1000, 0x1200⟩] })
      (fun t => (t.badVAddr, t.pc, t.epc)) = some (0x1003, 0xBFC00180, 0x1000) := by decide

/-- A fetch that fails: a misaligned `pc`, the first address past those admitted, a stored byte, the last of the
word fetched. -/
theorem test_witness_AccessChecks_fetch :
    (let s := { flat with pc := 0x00400002 };
      s.outcome = .running ∧ s.interruptTaken = false ∧ s.pc.toNat % 4 ≠ 0 ∧
        s.reach s.pc 4 .fetch = .error (.exc (.addressErrorLoad s.pc)) ∧
        s.fetch = .error (.exc (.addressErrorLoad s.pc))) ∧
    (let s := { flat with pc := 0x1000, cfg := { flat.cfg with memDomain := [⟨0, 0x1000⟩] } };
      s.outcome = .running ∧ s.interruptTaken = false ∧ s.pc.toNat % 4 = 0 ∧
        s.physical s.pc .fetch = .ok 0x1000 ∧ ∃ i < 4, admits s.cfg.memDomain ((0x1000 : Word).toNat + i) = false) ∧
    (let s := { flat with dirty := [0x00400003] };
      s.outcome = .running ∧ s.interruptTaken = false ∧ s.reach s.pc 4 .fetch = .ok 0x00400000 ∧
        s.cfg.fetchSeesStores = false ∧ ∃ d ∈ s.dirty, 0x00400000 ≤ d ∧ d < 0x00400000 + 4) := by decide

theorem test_witness_Segments : flat.cfg.trapModel = .fault ∧ user.cfg.trapModel = .mips1 ∧
    kernel.cfg.trapModel = .mips1 ∧ user.status.getLsbD 1 = true ∧ kernel.status.getLsbD 1 = false ∧
    (0x7FFFFFFF : Word).toNat < 0x80000000 ∧ 0x80000000 ≤ (0x80000000 : Word).toNat ∧
    (0x9FFFFFFF : Word).toNat < 0xA0000000 ∧ 0xA0000000 ≤ (0xA0000000 : Word).toNat ∧
    (0xBFFFFFFF : Word).toNat < 0xC0000000 ∧ 0xC0000000 ≤ (0xC0000000 : Word).toNat := by decide

/-- No entry matches, two entries match, one entry matches. -/
theorem test_witness_Translation :
    (∀ i e, ¬tlbHit { user with tlb := [] } 0x1000 i e) ∧
    (let s := { user with tlb := [⟨0x1000, 0x1600⟩, ⟨0x1000, 0x2600⟩] };
      tlbHit s 0x1000 0 ⟨0x1000, 0x1600⟩ ∧ tlbHit s 0x1000 1 ⟨0x1000, 0x2600⟩) ∧
    (tlbHit user 0x1FFF 0 ⟨0x1000, 0x1600⟩ ∧ ∀ j f, tlbHit user 0x1FFF j f → j = 0) := by
  refine ⟨fun i e h => by simpa using h.1, ⟨by unfold tlbHit; decide, by unfold tlbHit; decide⟩,
    by unfold tlbHit; decide, ?_⟩
  intro j f h
  cases j with
  | zero => rfl
  | succ j => simpa [user] using h.1

theorem test_witness_MixedWidth : Memory.wf flat.mem ∧
    (flat.store 0x1000 (wordBytes true 0x11223344)).toOption.isSome = true ∧ flat.cfg.bigEndian = true ∧
    ((vectors false).store 0x1000 (wordBytes false 0x11223344)).toOption.isSome = true ∧
    (vectors false).cfg.bigEndian = false := by decide

theorem test_witness_Loads :
    (vectors true).reach ((vectors true).x 1 + (7 : BitVec 16).signExtend 32) 1 .load = .ok 0x10010007 ∧
    (vectors true).reach ((vectors true).x 1 + (6 : BitVec 16).signExtend 32) 2 .load = .ok 0x10010006 ∧
    (vectors true).reach ((vectors true).x 1 + (4 : BitVec 16).signExtend 32) 4 .load = .ok 0x10010004 := by
  decide

theorem test_witness_Stores : Memory.wf (vectors true).mem ∧
    (vectors true).reach ((vectors true).ea 1 7) 1 .store = .ok 0x10010007 ∧
    (vectors true).reach ((vectors true).ea 1 6) 2 .store = .ok 0x10010006 ∧
    (vectors true).reach ((vectors true).ea 1 4) 4 .store = .ok 0x10010004 := by decide

/-- The first and the last place in a word, either side, in both byte orders. -/
theorem test_witness_PartialLoads_and_PartialStores : Memory.wf (vectors false).mem ∧
    (vectors true).reachPart true ((vectors true).ea 1 0) .load = .ok 0x10010000 ∧
    (vectors true).reachPart false ((vectors true).ea 1 3) .load = .ok 0x10010000 ∧
    (vectors false).reachPart true ((vectors false).ea 1 3) .store = .ok 0x10010000 ∧
    (vectors false).reachPart false ((vectors false).ea 1 0) .store = .ok 0x10010000 ∧
    (vectors true).cfg.fetchSeesStores = false := by decide

theorem test_witness_UnalignedWord :
    (let s := vectors true;
      (s.loadPart true 0x10010001 0).toOption.isSome = true ∧
        (s.loadPart false (0x10010001 + 3) 0x81828300).toOption.isSome = true ∧
        s.loadPart true 0x10010001 0 = .ok 0x81828300) ∧
    (let s := vectors false;
      s.loadPart true (0x10010001 + 3) 0 = .ok 0x04000000 ∧
        (s.loadPart false 0x10010001 0x04000000).toOption.isSome = true) ∧
    (0xFFFFFFFC : Word).toNat + 3 < 4294967296 := by decide

theorem test_witness_AlignmentErrors : (flat.ea 0 1).toNat % 2 ≠ 0 ∧ (flat.ea 0 2).toNat % 4 ≠ 0 ∧
    answers (flat.raise (.addressErrorLoad 1)) = true ∧
    flat.physical (flat.ea 0 3) .load = .ok 3 ∧ flat.physical (flat.ea 0 3) .store = .ok 3 ∧
    ∀ j < 4, admits flat.cfg.memDomain ((3 : Word).toNat / 4 * 4 + j) = true := by decide

theorem test_witness_CoprocessorLoads_and_CoprocessorStores : Memory.wf kernel.mem ∧
    (let s := kernel.setX 1 0x80001000;
      s.reach (s.x 1 + (4 : BitVec 16).signExtend 32) 4 .load = .ok 0x1004 ∧
      s.reach (s.ea 1 4) 4 .store = .ok 0x1004 ∧ s.gate 1 = none ∧ s.gate 2 = none ∧ s.gate 3 = none) := by
  decide

theorem test_witness_FpControl : (5 : Reg) ≠ 0 ∧ (5 : Reg) ≠ 31 ∧
    ((withX flat 0 0x00800001).x 2).extractLsb' 7 5 = 0 ∧
    ((withX flat 0 0x80).x 2).extractLsb' 7 5 ≠ 0 := by decide

theorem test_witness_ReadSystemRegister_and_WriteSystemRegister :
    (3 : Reg) ∉ ([0, 1, 2, 4, 8, 10, 12, 13, 14, 15] : List Reg) ∧
    (31 : Reg) ∉ ([0, 1, 2, 4, 8, 10, 12, 13, 14, 15] : List Reg) ∧ kernel.gate 0 = none ∧
    ((withX kernel 0 0x02000000).x 2).getLsbD 25 = true ∧
    ((withX kernel 0 0xF040FF3F).x 2).getLsbD 25 = false := by
  decide

/-- The rows of Random at its greatest value, of Cause with every level raised, and of the last register. -/
theorem test_witness_ReadSystemRegister :
    (let s := { kernel with random := 63, intPins := 0x3F, cause := 0xFFFFFFFF };
      s.gate 0 = none ∧ look (exec (.mfc0 2 1) s) (·.x 2) = some 0x00003F00 ∧
        look (exec (.mfc0 2 13) s) (·.x 2) = some 0xB000FF7C ∧
        look (exec (.mfc0 2 15) s) (·.x 2) = some s.prid) := by decide

theorem test_witness_RaisingInstructions : kernel.gate 0 = none ∧ usableBy kernel 2 ∧ usableBy kernel 3 ∧
    ¬usableBy flat 2 ∧ ¬usableBy State.reset 3 ∧ flat.cfg.trapModel = .fault := by
  unfold usableBy; decide

theorem test_witness_TlbInstructions :
    (kernel.index.extractLsb' 8 6).toNat = 0 ∧ kernel.tlb[0]? = some ⟨0x80000000, 0⟩ ∧
    kernel.tlb.length = 64 ∧
    (let s := { kernel with tlb := [⟨0x1000, 0x1600⟩], index := 0x100 };
      s.tlb.length ≤ (s.index.extractLsb' 8 6).toNat) ∧
    (∀ j e, ¬tlbHit { kernel with tlb := [] } 0 j e) ∧
    (let s := { kernel with tlb := [⟨0x1000, 0x1600⟩], entryHi := 0x1000 };
      tlbHit s s.entryHi 0 ⟨0x1000, 0x1600⟩ ∧ ∀ k f, tlbHit s s.entryHi k f → k = 0) ∧
    (let s := { kernel with tlb := [⟨0x1000, 0x1600⟩, ⟨0x1000, 0x2600⟩], entryHi := 0x1000 };
      tlbHit s s.entryHi 0 ⟨0x1000, 0x1600⟩ ∧ tlbHit s s.entryHi 1 ⟨0x1000, 0x2600⟩) := by
  refine ⟨by decide, by decide, by decide, by decide, fun j e h => by simpa using h.1,
    ⟨by unfold tlbHit; decide, ?_⟩, by unfold tlbHit; decide, by unfold tlbHit; decide⟩
  intro k f h
  cases k with
  | zero => rfl
  | succ k => simpa using h.1

/-- The default floating-point functions and a given record of them; the first and last register of a pair; each
value of RM. -/
theorem test_witness_FpArithmetic_and_FpSignAndMove_and_Compares :
    flat.gate 1 = none ∧ evenReg 0 = true ∧ evenReg 2 = true ∧ evenReg 4 = true ∧
    evenReg 30 = true ∧ flat.cfg.fp = .ieee754 ∧
    ({ flat with cfg := { flat.cfg with fp := .given 0 } } : State).cfg.fp = .given 0 ∧
    flat.rm = 0 ∧ ({ flat with rm := 1 } : State).rm = 1 ∧ ({ flat with rm := 2 } : State).rm = 2 ∧
    ({ flat with rm := 3 } : State).rm = 3 := by decide

/-- What the compares find of 1 and 2, of equal zeros, and of a NaN. -/
theorem test_witness_Compares :
    (let s := (flat.setF 4 0x3F800000).setF 6 0x40000000; s.fp.relation32 (s.f 4) (s.f 6) = ⟨true, false, false⟩) ∧
    (let s := flat.setF 4 0x80000000; s.fp.relation32 (s.f 4) (s.f 6) = ⟨false, true, false⟩) ∧
    (let s := flat.setF 4 0x7FC00000; s.fp.relation32 (s.f 4) (s.f 6) = ⟨false, false, true⟩) ∧
    flat.fp.relation64 (flat.d 4) (flat.d 6) = ⟨false, true, false⟩ := by decide

/-- Sums of zeros of like and of unlike sign, and of values that cancel. -/
theorem test_witness_FpSpecialCases_and_CompareOrder : (1 : Nat) ≠ 0 ∧ Format.single.unit ≠ 0 ∧
    signedQuot true 0 1 + signedQuot true 0 1 = 0 ∧ signedQuot false 0 1 + signedQuot true 0 1 = 0 ∧
    signedQuot false 3 2 + signedQuot true 3 2 = 0 := by
  refine ⟨by decide, by decide, ?_, ?_, ?_⟩ <;> norm_num [signedQuot]

theorem test_witness_RoundingExact : val32 0x80000001 ≠ .nan ∧ val32 0x7F800000 ≠ .nan ∧
    val64 0x8000000000000000 ≠ .nan ∧ ((0x00000001 : Word).extractLsb' 23 8).toNat = 0 ∧
    ((0xFF800000 : Word).extractLsb' 23 8).toNat = 255 := by decide

theorem test_witness_RoundingCorrect :
    val32 0x3F800000 ≠ .nan ∧ FVal.lt (.rat false 3 2) (val32 0x3F800000) = false ∧
    FVal.lt (val32 0x40000000) (.rat false 3 2) = false ∧
    (∃ a m, val32 0x3FC00000 = .rat false a m) ∧
    (2 ^ 25 - 1) * 2 ^ 103 * 1 ≤ 2 ^ 128 := by
  refine ⟨by decide, by decide, by decide, ⟨_, _, rfl⟩, by decide⟩

theorem test_witness_FpConversions :
    FVal.roundInt .nearestEven (val32 0xCF000000) = some (-2147483648) ∧
    FVal.roundInt .nearestEven (val64 0x8000000000000000) = some 0 ∧
    FVal.roundInt .down (val64 0x41DFFFFFFFE00000) = some 2147483647 ∧
    FVal.roundInt .up (val64 0x41DFFFFFFFE00000) = some 2147483648 ∧
    FVal.roundInt .nearestEven (val32 0x4F000000) = some 2147483648 ∧
    FVal.roundInt .nearestEven (.rat false 5 2) = some 2 ∧ FVal.roundInt .nearestEven (.rat true 7 2) = some (-4) ∧
    FVal.roundInt .towardZero (.rat true 7 2) = some (-3) ∧
    FVal.roundInt .nearestEven (.inf true) = none ∧ (2 : Nat) ≠ 0 := by decide

theorem test_witness_TrapEntry : kernel.cfg.trapModel = .mips1 ∧
    (Exc.tlbLoad 0x1000 true).badAddress ≠ none ∧ Exc.syscall.badAddress = none ∧
    ({ kernel with cfg := { kernel.cfg with delaySlots := true }, inDelay := true } : State).inDelay = true := by
  decide

/-- An address error leaves Context and EntryHi and writes BadVAddr; a TLB exception writes all three; an unusable
coprocessor's number goes to CE. -/
theorem test_witness_TrapEntry_fields : kernel.cfg.trapModel = .mips1 ∧
    look (kernel.raise (.addressErrorStore 0xFFFFFFFF)) (fun t => (t.badVAddr, t.context, t.entryHi)) =
      some (0xFFFFFFFF, kernel.context, kernel.entryHi) ∧
    look (kernel.raise (.tlbStore 0xFFFFFFFF false))
      (fun t => (t.badVAddr, t.context.extractLsb' 2 19, t.entryHi.extractLsb' 12 20)) =
      some (0xFFFFFFFF, 0x7FFFF, 0xFFFFF) ∧
    look (kernel.raise (.coprocessorUnusable 3)) (fun t => (t.cause.extractLsb' 28 2, t.cause.extractLsb' 2 5)) =
      some (3, 11) := by decide

theorem test_witness_VectorsAndCodes : kernel.status.getLsbD 22 = true ∧
    ({ kernel with status := 0 } : State).status.getLsbD 22 = false ∧
    ∀ va : Word, Exc.syscall ≠ .tlbLoad va true ∧ Exc.syscall ≠ .tlbStore va true := by
  refine ⟨by decide, by decide, fun va => ⟨by simp, by simp⟩⟩

/-- An instruction that completes, and one that raises. -/
theorem test_witness_ExceptionsPrecise : (∃ t, exec (.addu 3 1 2) flat = .next t) ∧
    ∃ t, exec (.add 3 1 2) (withX flat 0x7FFFFFFF 1) = .next t :=
  ⟨exists_of_answers (by decide), exists_of_answers (by decide)⟩

/-- An interrupt taken: IEc and a software interrupt enabled and pending. -/
theorem test_witness_Interrupts :
    (let s := { kernel with status := 0x00400101, cause := 0x100 };
      s.cfg.trapModel = .mips1 ∧ s.outcome = .running ∧ s.interruptTaken = true) ∧
    flat.cfg.trapModel = .fault := by decide

theorem test_witness_Hazards :
    ((1 : Reg) ≠ 0 ∧ (1 : Reg) ∈ gprSources (.addu 3 1 2)) ∧ (4 : Reg) ∈ fprSources (.addS 2 4 6) ∧
    (5 : Reg) ∈ fprSources (.addD 2 4 6) ∧ isBranch (.beq 1 2 3) = true ∧
    (let s := hazardous;
      s.loadPending = .none ∧ s.hiloAge < 2 ∧ s.cfg.hiloHazard = true ∧ s.cfg.loadDelay = true) ∧
    (flat.loadPending = .none ∧ 2 ≤ flat.hiloAge ∧ flat.fccFresh = false ∧ flat.inDelay = false ∧
      flat.cfg.loadDelay = false) := by decide

/-- A branch in a delay slot with `LOAD_DELAY` on too: a load pending that it does not read, and a fresh condition
that it does not test. -/
theorem test_witness_Hazards_delay_slot :
    (let s := { pendingLoad with
        cfg := { pendingLoad.cfg with delaySlots := true }, inDelay := true, fccFresh := true };
      s.cfg.delaySlots = true ∧ s.cfg.loadDelay = true ∧ s.inDelay = true ∧ isBranch (.beq 2 3 4) = true ∧
        s.loadPending = .gpr 1 ∧ (1 : Reg) ∉ gprSources (.beq 2 3 4) ∧
        s.hazard (.beq 2 3 4) = some .branchInDelaySlot ∧ s.hazard (.beq 1 3 4) = some .loadUseHazard ∧
        s.hazard (.bc1t 4) = some .fccHazard) ∧
    (31 : Reg) ∈ fprSources (.absD 2 30) ∧ (31 : Reg) ∉ fprSources (.absS 2 30) ∧
    (31 : Reg) ∈ gprSources (.sw 31 0 0) ∧ (31 : Reg) ∉ gprSources (.lw 31 0 0) := by decide

/-- A user-mode step that completes, and one that takes an exception. -/
theorem test_witness_UserModeProtected : user.cfg.trapModel = .mips1 ∧ user.status.getLsbD 1 = true ∧
    user.status.getLsbD 28 = false ∧ (∃ t, step (user.withFetchWord 32 0x00221821) = .next t) ∧
    ∃ t, step (user.withFetchWord 32 0x0000000C) = .next t :=
  ⟨by decide, by decide, by decide, exists_of_answers (by decide), exists_of_answers (by decide)⟩

theorem test_witness_ResetAndLaunch : (0xFFFFFFFC : Word).toNat % 4 = 0 := by decide

/-- A user-mode state with the invariant that has a step. -/
theorem test_witness_StepKeepsInvariant :
    (user.withFetchWord 32 0x00221821).Inv ∧ ∃ t, step (user.withFetchWord 32 0x00221821) = .next t := by
  refine ⟨⟨by decide, by decide, by decide, ?_, ?_, ?_, ?_, ?_, ?_, ?_, by decide, by decide, by decide, by decide,
    by decide, by decide, by decide, by decide⟩, exists_of_answers (by decide)⟩ <;> unfold within <;> decide

end Sys2Proof.Tests
end

section
/-! The machine's invariant (rules R21, R37, R38, R40 to R42, R380): it holds after reset, every update of the
state keeps it, so every instruction, every exception and every step does. What a reset and a launch set (rules R45, R420, R421). -/

namespace Sys2Proof.Machine

/-! ## Words under a mask -/

/-- A word lies within a mask when every bit it has is a bit of the mask. -/
theorem within_iff {mask w : Word} :
    within mask w ↔ ∀ k < 32, w.getLsbD k = true → mask.getLsbD k = true := by
  constructor
  · intro h k hk hw
    have hbit := congrArg (·.getLsbD k) h
    simpa [hk, hw] using hbit
  · intro h
    refine BitVec.eq_of_getLsbD_eq fun k hk => ?_
    have := h k hk
    cases hw : w.getLsbD k <;> simp_all

theorem getLsbD_insertBits (mask old new : Word) {k : Nat} (hk : k < 32) :
    (insertBits mask old new).getLsbD k = if mask.getLsbD k then new.getLsbD k else old.getLsbD k := by
  simp only [insertBits, BitVec.getLsbD_or, BitVec.getLsbD_and, BitVec.getLsbD_not, hk]
  cases mask.getLsbD k <;> simp

/-- Writing some of a mask's bits stays within the mask. -/
theorem within_insertBits {mask writable old new : Word} (h : within mask old) (hw : within mask writable) :
    within mask (insertBits writable old new) := by
  rw [within_iff] at *
  intro k hk hb
  rw [getLsbD_insertBits _ _ _ hk] at hb
  split at hb
  · next hbit => exact hw k hk hbit
  · exact h k hk hb

theorem within_self (mask : Word) : within mask mask := within_iff.2 fun _ _ h => h

theorem getLsbD_statusPush (st : Word) {k : Nat} (hk : k < 32) : (statusPush st).getLsbD k =
    if k < 2 then false else if k < 6 then st.getLsbD (k - 2) else st.getLsbD k := by
  simp only [statusPush, BitVec.getLsbD_append, BitVec.getLsbD_extractLsb']
  split_ifs <;> try omega
  · simp
  · simp only [Nat.zero_add, Bool.and_eq_right_iff_imp, decide_eq_true_eq]; omega
  · rw [show 6 + (k - 2 - 4) = k by omega]
    simp only [Bool.and_eq_right_iff_imp, decide_eq_true_eq]; omega

theorem getLsbD_statusPop (st : Word) {k : Nat} (hk : k < 32) : (statusPop st).getLsbD k =
    if k < 4 then st.getLsbD (k + 2) else st.getLsbD k := by
  simp only [statusPop, BitVec.getLsbD_append, BitVec.getLsbD_extractLsb']
  split_ifs with h
  · simp [h, Nat.add_comm 2 k]
  · rw [show 4 + (k - 4) = k by omega]
    simp only [Bool.and_eq_right_iff_imp, decide_eq_true_eq]; omega

/-- The push of the KU/IE stack keeps the reserved bits of Status 0: the stack's six bits are none of them. -/
theorem within_statusPush {st : Word} (h : within statusMask st) : within statusMask (statusPush st) := by
  rw [within_iff] at *
  intro k hk hb
  have hstack : ∀ k < 6, statusMask.getLsbD k = true := by decide
  rcases Nat.lt_or_ge k 6 with h6 | h6
  · exact hstack k h6
  · rw [getLsbD_statusPush st hk, if_neg (by omega), if_neg (by omega)] at hb
    exact h k hk hb

/-- The pop of the KU/IE stack keeps them too. -/
theorem within_statusPop {st : Word} (h : within statusMask st) : within statusMask (statusPop st) := by
  rw [within_iff] at *
  intro k hk hb
  have hstack : ∀ k < 4, statusMask.getLsbD k = true := by decide
  rcases Nat.lt_or_ge k 4 with h4 | h4
  · exact hstack k h4
  · rw [getLsbD_statusPop st hk, if_neg (by omega)] at hb
    exact h k hk hb

/-- Cause as trap entry writes it has no reserved bit, whatever it held. -/
theorem within_causeEntry (old : Word) (bd : Bool) (ce : CopNum) (code : BitVec 5) :
    within causeMask (causeEntry old bd ce code) := by
  have hmask : ∀ k < 32, causeMask.getLsbD k = true ∨ k < 2 ∨ k = 7 ∨ (10 ≤ k ∧ k < 28) ∨ k = 30 := by
    decide
  rw [within_iff]
  intro k hk hb
  refine (hmask k hk).resolve_right fun hz => ?_
  simp only [causeEntry, BitVec.getLsbD_append] at hb
  rcases hz with hz | rfl | hz | rfl
  · simp [hz] at hb
  · simp at hb
  · split_ifs at hb <;> try omega
    simp at hb
  · simp at hb

/-- The low bits of a word under a mask of all the higher ones are 0. -/
theorem within_append_zero {n m : Nat} {mask : Word} (a : BitVec n) (hn : n + m = 32)
    (hmask : ∀ k < 32, mask.getLsbD k = true ∨ k < m) : within mask ((a ++ 0#m).cast hn) := by
  rw [within_iff]
  intro k hk hb
  refine (hmask k hk).resolve_right fun hz => ?_
  simp [BitVec.getLsbD_append, hz] at hb

theorem within_contextWithVa (old va : Word) : within contextMask (contextWithVa old va) :=
  within_append_zero _ rfl (by decide)

theorem within_entryHiWithVa (old va : Word) : within entryHiMask (entryHiWithVa old va) :=
  within_append_zero _ rfl (by decide)

/-- The index of an entry of a buffer of at most 64, in the layout of Index. -/
theorem within_index_of_lt {i : Nat} (hi : i < 64) : within indexMask (BitVec.ofNat 32 i <<< 8) := by
  have h : ∀ i < 64, BitVec.ofNat 32 i <<< 8 &&& ~~~indexMask = 0 := by decide
  exact h i hi

/-! ## The invariant under the updates of the state -/

variable {s : State}

theorem inv_setX (h : s.Inv) (r : Reg) (v : Word) : (s.setX r v).Inv := by
  have hzero := setX_keeps_zero s r v h.zero
  unfold State.setX at *
  split
  · exact h
  · next hr => rw [if_neg hr] at hzero; exact { h with zero := hzero }

theorem inv_setF (h : s.Inv) (r : Reg) (v : Word) : (s.setF r v).Inv := { h with }

theorem inv_setD (h : s.Inv) (r : Reg) (v : DWord) : (s.setD r v).Inv := { h with }

theorem inv_drawn (h : s.Inv) : s.drawn.Inv := { h with }

theorem inv_bookkeep (h : s.Inv) (c : Completion) : (s.bookkeep c).Inv :=
  { h with
    hiloAge := by
      have := h.hiloAge
      simp only [bookkeep_hiloAge]
      split_ifs <;> omega
    noLoadDelay := fun hl => by
      obtain ⟨hp, hf⟩ := h.noLoadDelay hl
      have hl : s.cfg.loadDelay = false := hl
      simp [hl, hp, hf]
    noHiLoHazard := fun hz => by
      have hz : s.cfg.hiloHazard = false := hz
      simp [hz, h.noHiLoHazard hz] }

theorem inv_advance (h : s.Inv) (c : Completion) : (s.advance c).Inv := by
  unfold State.advance
  split
  · next hs => exact { h with noSlots := fun hn => absurd hs (by rw [hn]; decide) }
  · exact { h with }

theorem inv_sampleInputs (h : s.Inv) : s.sampleInputs.Inv := by
  unfold State.sampleInputs
  split
  · exact h
  · refine { h with random := ?_ }
    simp only [drawRandom, BitVec.toNat_ofNat]
    omega

theorem inv_exceptionReturn (h : s.Inv) : s.exceptionReturn.Inv := { h with status := within_statusPop h.status }

/-- Bytes written below 2^32 keep memory and `dirty` in canonical form. -/
theorem inv_writeCells (h : s.Inv) {cells : List Host.Cell} (hc : ∀ c ∈ cells, c.1 < 4294967296) :
    (s.writeCells cells).Inv := by
  obtain ⟨hmem, hdirty⟩ := writeCells_wf s cells h.mem h.dirty hc
  refine { h with mem := hmem, dirty := hdirty, noDirty := fun hf => ?_ }
  have hf : s.cfg.fetchSeesStores = true := hf
  simp [State.writeCells, hf, h.noDirty hf]

theorem inv_trapEntry (h : s.Inv) (e : Exc) : (s.trapEntry e).Inv :=
  { h with
    status := within_statusPush h.status
    cause := within_causeEntry _ _ _ _
    entryHi := by
      unfold State.trapEntry
      dsimp only
      split
      · exact within_entryHiWithVa _ _
      · exact h.entryHi
    context := by
      unfold State.trapEntry
      dsimp only
      split
      · exact within_contextWithVa _ _
      · exact h.context
    noSlots := fun hs => by
      have hs : s.cfg.delaySlots = false := hs
      simp [hs, h.noSlots hs]
    noLoadDelay := fun hl => ⟨rfl, (h.noLoadDelay hl).2⟩ }

/-- Writing one entry of the buffer with EntryHi and EntryLo. -/
theorem inv_setTlb (h : s.Inv) (i : Nat) : { s with tlb := s.tlb.set i ⟨s.entryHi, s.entryLo⟩ }.Inv :=
  { h with
    tlb := fun e he => by
      rcases List.mem_or_eq_of_mem_set he with he | rfl
      · exact h.tlb e he
      · exact ⟨h.entryHi, h.entryLo⟩
    tlbSize := by simpa using h.tlbSize }

theorem inv_cp0Write (h : s.Inv) {rd : Reg} {v : Word} {t : State} (hw : s.cp0Write rd v = some t) : t.Inv := by
  have hcontext : within contextMask contextWritable := by unfold within; decide
  have hcause : within causeMask causeWritable := by unfold within; decide
  unfold State.cp0Write at hw
  split_ifs at hw <;> cases hw
  · exact { h with index := within_insertBits h.index (within_self _) }
  · exact { h with entryLo := within_insertBits h.entryLo (within_self _) }
  · exact { h with context := within_insertBits h.context hcontext }
  · exact { h with entryHi := within_insertBits h.entryHi (within_self _) }
  · exact { h with status := within_insertBits h.status (within_self _) }
  · exact { h with cause := within_insertBits h.cause hcause }
  · exact h

/-- A probe that finds one entry writes its index, which is below the buffer's length. -/
theorem inv_probed (h : s.Inv) {vpn : BitVec 20} {asid : BitVec 6} {e : TlbEntry} {i : Nat}
    (hm : tlbMatches s.tlb vpn asid = [(e, i)]) : { s with index := BitVec.ofNat 32 i <<< 8 }.Inv := by
  have hmem : (e, i) ∈ s.tlb.zipIdx := List.mem_of_mem_filter (by rw [tlbMatches] at hm; rw [hm]; simp)
  have hi : i < s.tlb.length := by simpa using (List.mem_zipIdx hmem).2.1
  exact { h with index := within_index_of_lt (by have := h.tlbSize; omega) }

/-! ## The invariant under the ends of an instruction -/

/-- The next state, if there is one, meets the invariant. -/
def KeepsInv (r : Result) : Prop := ∀ t, r = .next t → t.Inv

theorem keepsInv_fault (r : Fault) : KeepsInv (.fault r) := fun _ h => by cases h

theorem keepsInv_refused (r : Refusal) : KeepsInv (.refused r) := fun _ h => by cases h

theorem keepsInv_ite {c : Prop} [Decidable c] {r q : Result} (hr : KeepsInv r) (hq : KeepsInv q) :
    KeepsInv (if c then r else q) := by
  split
  · exact hr
  · exact hq

/-- An exception stops only a machine without handlers (rule R380). -/
theorem keepsInv_raise (h : s.Inv) (e : Exc) : KeepsInv (s.raise e) := by
  intro t ht
  unfold State.raise at ht
  split at ht
  · next hm => cases ht; exact { h with running := fun hn => absurd (hm.symm.trans hn) (by decide) }
  · cases ht; exact inv_trapEntry h e

theorem keepsInv_stop (h : s.Inv) (st : Stop) : KeepsInv (s.stop st) := by
  intro t ht
  obtain ⟨e, _, he⟩ := stop_eq_next ht
  exact keepsInv_raise h e t he

theorem keepsInv_onCop (h : s.Inv) {z : CopNum} {k : Result} (hk : KeepsInv k) : KeepsInv (s.onCop z k) := by
  intro t ht
  rcases onCop_eq_next ht with hr | ⟨_, hn⟩
  · exact keepsInv_raise h _ t hr
  · exact hk t hn

theorem keepsInv_onEven {regs : List Reg} {k : Result} (hk : KeepsInv k) : KeepsInv (State.onEven regs k) :=
  fun t ht => hk t (onEven_eq_next ht).2

theorem keepsInv_complete (h : s.Inv) (c : Completion) : KeepsInv (s.complete c) := by
  intro t ht
  cases ht
  exact inv_advance (inv_bookkeep h c) c

theorem keepsInv_finishX (h : s.Inv) (rd : Reg) (v : Word) : KeepsInv (s.finishX rd v) :=
  keepsInv_complete (inv_setX h rd v) _

theorem keepsInv_branch (h : s.Inv) (c : Bool) (offset : BitVec 16) : KeepsInv (s.branch c offset) :=
  keepsInv_complete h _

theorem keepsInv_jump (h : s.Inv) (target : Word) : KeepsInv (s.jump target) := keepsInv_complete h _

theorem keepsInv_branchOnInput (h : s.Inv) (z : CopNum) (sense : Bool) (offset : BitVec 16) :
    KeepsInv (s.branchOnInput z sense offset) := keepsInv_branch (inv_drawn h) _ _

theorem keepsInv_finishMove (h : s.Inv) (rt : Reg) (v : Word) : KeepsInv (s.finishMove rt v) :=
  keepsInv_complete (inv_setX h rt v) _

theorem keepsInv_finishHiLo (h : s.Inv) (hi lo : Word) : KeepsInv (s.finishHiLo hi lo) :=
  keepsInv_complete (by exact { h with }) _

theorem keepsInv_finishDivideByZero (h : s.Inv) : KeepsInv s.finishDivideByZero :=
  keepsInv_complete (by exact { h with }) _

theorem keepsInv_finishLoad (h : s.Inv) (rt : Reg) (r : Except Stop Word) : KeepsInv (s.finishLoad rt r) := by
  cases r with
  | error st => exact keepsInv_stop h st
  | ok v => exact keepsInv_complete (inv_setX h rt v) _

theorem keepsInv_loadThen (h : s.Inv) (r : Except Stop Word) {k : Word → Result} (hk : ∀ v, KeepsInv (k v)) :
    KeepsInv (s.loadThen r k) := by
  cases r with
  | error st => exact keepsInv_stop h st
  | ok v => exact hk v

theorem wordBytes_length (be : Bool) (v : Word) : (wordBytes be v).length = 4 := by cases be <;> rfl

theorem halfBytes_length (be : Bool) (v : Half) : (halfBytes be v).length = 2 := by cases be <;> rfl

/-- The cells of a left or right store lie in the aligned word (rule R232). -/
theorem mem_laneCells {left be : Bool} {b base : Nat} {v : Word} {c : Host.Cell} (hb : b < 4)
    (hc : c ∈ laneCells left be b base v) : c.1 < base + 4 := by
  simp only [laneCells, List.mem_filterMap, Option.map_eq_some_iff] at hc
  obtain ⟨k, hk, o, ho, rfl⟩ := hc
  have hk : k < 4 := by
    have : ∀ k ∈ [3, 2, 1, 0], k < 4 := by decide
    exact this k hk
  exact Nat.add_lt_add_left (lane_lt hb hk ho) base

theorem keepsInv_store (h : s.Inv) (va : Word) {bytes : List Byte} (hl : bytes.length ∣ 4096) :
    KeepsInv (s.finishStore (s.store va bytes)) := by
  intro t ht
  rcases finishStore_eq_next ht with ⟨e, he⟩ | ⟨u, hu, ht⟩
  · exact keepsInv_raise h e t he
  · obtain ⟨a, ha, rfl⟩ := store_eq_ok hu
    obtain ⟨_, _, htop, _⟩ := reach_ok hl ha
    refine keepsInv_complete (inv_writeCells h fun c hc => ?_) _ t ht
    have := mem_cellsAt hc
    omega

theorem keepsInv_storePart (h : s.Inv) (left : Bool) (va v : Word) :
    KeepsInv (s.finishStore (s.storePart left va v)) := by
  intro t ht
  rcases finishStore_eq_next ht with ⟨e, he⟩ | ⟨u, hu, ht⟩
  · exact keepsInv_raise h e t he
  · obtain ⟨base, ha, rfl⟩ := storePart_eq_ok hu
    obtain ⟨_, htop, _⟩ := reachPart_ok ha
    refine keepsInv_complete (inv_writeCells h fun c hc => ?_) _ t ht
    have := mem_laneCells (Nat.mod_lt _ (by decide)) hc
    omega

theorem keepsInv_storeWord (h : s.Inv) (va v : Word) :
    KeepsInv (s.finishStore (s.store va (wordBytes s.cfg.bigEndian v))) :=
  keepsInv_store h va (by rw [wordBytes_length]; decide)

theorem keepsInv_finishS (h : s.Inv) (fd : Reg) (r : Option Word) : KeepsInv (s.finishS fd r) := by
  cases r with
  | some v => exact keepsInv_complete (inv_setF h fd v) _
  | none => exact keepsInv_complete (inv_setF (inv_drawn h) fd _) _

theorem keepsInv_finishD (h : s.Inv) (fd : Reg) (r : Option DWord) : KeepsInv (s.finishD fd r) := by
  cases r with
  | some v => exact keepsInv_complete (inv_setD h fd v) _
  | none => exact keepsInv_complete (inv_setD (inv_drawn h) fd _) _

theorem keepsInv_finishW (h : s.Inv) (fd : Reg) (r : Option Word) : KeepsInv (s.finishW fd r) := by
  cases r with
  | some v => exact keepsInv_complete (inv_setF h fd v) _
  | none => exact keepsInv_complete (inv_setF (inv_drawn h) fd _) _

theorem keepsInv_compareS (h : s.Inv) (cond : BitVec 4) (fs ft : Reg) : KeepsInv (s.compareS cond fs ft) :=
  keepsInv_onCop h (keepsInv_complete (by exact { h with }) _)

theorem keepsInv_compareD (h : s.Inv) (cond : BitVec 4) (fs ft : Reg) : KeepsInv (s.compareD cond fs ft) :=
  keepsInv_onCop h (keepsInv_onEven (keepsInv_complete (by exact { h with }) _))

/-! ## The instructions with an end of their own -/

theorem keepsInv_execMfc0 (h : s.Inv) (rt rd : Reg) : KeepsInv (execMfc0 rt rd s) := by
  refine keepsInv_onCop h ?_
  split
  · exact keepsInv_finishMove h rt _
  · exact keepsInv_refused _

theorem keepsInv_execMtc0 (h : s.Inv) (rt rd : Reg) : KeepsInv (execMtc0 rt rd s) := by
  refine keepsInv_onCop h ?_
  split
  · next hw => exact keepsInv_complete (inv_cp0Write h hw) _
  · exact keepsInv_refused _

theorem keepsInv_execTlbr (h : s.Inv) : KeepsInv (execTlbr s) := by
  refine keepsInv_onCop h ?_
  split
  · next e he =>
    obtain ⟨hhi, hlo⟩ := h.tlb e (List.mem_of_getElem? he)
    exact keepsInv_complete (by exact { h with entryHi := hhi, entryLo := hlo }) _
  · exact keepsInv_refused _

theorem keepsInv_execTlbp (h : s.Inv) : KeepsInv (execTlbp s) := by
  have hfailed : within indexMask 0x80000000 := by unfold within; decide
  refine keepsInv_onCop h ?_
  split
  · exact keepsInv_complete (by exact { h with index := hfailed }) _
  · next hm => exact keepsInv_complete (inv_probed h hm) _
  · exact keepsInv_fault _

/-- Every instruction keeps the invariant: each ends in one of the ways above. -/
theorem keepsInv_exec (h : s.Inv) (i : Instr) : KeepsInv (exec i s) := by
  cases i with
  | add | addi | sub => exact keepsInv_ite (keepsInv_raise h _) (keepsInv_finishX h _ _)
  | addu | addiu | subu | and | or | xor | nor | andi | ori | xori | sll | srl | sra | sllv | srlv | srav
  | lui | slt | sltu | slti | sltiu => exact keepsInv_finishX h _ _
  | mult | multu => exact keepsInv_finishHiLo h _ _
  | div | divu => exact keepsInv_ite (keepsInv_finishDivideByZero h) (keepsInv_finishHiLo h _ _)
  | mthi | mtlo => exact keepsInv_complete (by exact { h with }) _
  | mfhi | mflo => exact keepsInv_complete (inv_setX h _ _) _
  | beq | bne | blez | bgtz | bltz | bgez => exact keepsInv_branch h _ _
  | bltzal | bgezal => exact keepsInv_ite (keepsInv_refused _) (keepsInv_branch (inv_setX h _ _) _ _)
  | j | jr => exact keepsInv_jump h _
  | jal => exact keepsInv_jump (inv_setX h _ _) _
  | jalr => exact keepsInv_ite (keepsInv_refused _) (keepsInv_jump (inv_setX h _ _) _)
  | bc1f | bc1t => exact keepsInv_onCop h (keepsInv_branch h _ _)
  | bc0f | bc0t | bc2f | bc2t | bc3f | bc3t => exact keepsInv_onCop h (keepsInv_branchOnInput h _ _ _)
  | syscall | brk => exact keepsInv_raise h _
  | cfc0 | ctc0 => exact keepsInv_onCop h (keepsInv_raise h _)
  | cop2 | cop3 => exact keepsInv_onCop h (keepsInv_refused _)
  | lwc0 | swc0 => exact keepsInv_refused _
  | lb | lbu | lh | lhu | lw | lwl | lwr => exact keepsInv_finishLoad h _ _
  | lwc1 => exact keepsInv_onCop h (keepsInv_loadThen h _ fun v => keepsInv_complete (inv_setF h _ v) _)
  | lwc2 | lwc3 => exact keepsInv_onCop h (keepsInv_loadThen h _ fun _ => keepsInv_complete (by exact { h with }) _)
  | sb => exact keepsInv_store h _ (one_dvd _)
  | sh => exact keepsInv_store h _ (by rw [halfBytes_length]; decide)
  | sw => exact keepsInv_storeWord h _ _
  | swl | swr => exact keepsInv_storePart h _ _ _
  | swc1 | swc2 | swc3 => exact keepsInv_onCop h (keepsInv_storeWord h _ _)
  | mfc0 => exact keepsInv_execMfc0 h _ _
  | mtc0 => exact keepsInv_execMtc0 h _ _
  | mfc1 | mfc2 | cfc2 | mfc3 | cfc3 => exact keepsInv_onCop h (keepsInv_finishMove h _ _)
  | cfc1 => exact keepsInv_onCop h (keepsInv_ite (keepsInv_finishMove (inv_drawn h) _ _)
      (keepsInv_ite (keepsInv_finishMove h _ _) (keepsInv_refused _)))
  | mtc1 => exact keepsInv_onCop h (keepsInv_complete (inv_setF h _ _) _)
  | ctc1 => exact keepsInv_onCop h (keepsInv_ite (keepsInv_complete (by exact { h with }) _) (keepsInv_refused _))
  | mtc2 | ctc2 | mtc3 | ctc3 => exact keepsInv_onCop h (keepsInv_complete (by exact { h with }) _)
  | rfe => exact keepsInv_onCop h (keepsInv_complete (inv_exceptionReturn h) _)
  | tlbr => exact keepsInv_execTlbr h
  | tlbwi => exact keepsInv_onCop h (keepsInv_ite (keepsInv_complete (inv_setTlb h _) _) (keepsInv_refused _))
  | tlbwr =>
    exact keepsInv_onCop h (keepsInv_ite (keepsInv_complete (inv_setTlb (inv_drawn h) _) _) (keepsInv_refused _))
  | tlbp => exact keepsInv_execTlbp h
  | addS | subS | mulS | divS | absS | negS | cvtSW => exact keepsInv_onCop h (keepsInv_finishS h _ _)
  | cvtSD => exact keepsInv_onCop h (keepsInv_onEven (keepsInv_finishS h _ _))
  | addD | subD | mulD | divD | absD | negD | cvtDS | cvtDW =>
    exact keepsInv_onCop h (keepsInv_onEven (keepsInv_finishD h _ _))
  | movS => exact keepsInv_onCop h (keepsInv_complete (inv_setF h _ _) _)
  | movD => exact keepsInv_onCop h (keepsInv_onEven (keepsInv_complete (inv_setD h _ _) _))
  | cvtWS => exact keepsInv_onCop h (keepsInv_finishW h _ _)
  | cvtWD => exact keepsInv_onCop h (keepsInv_onEven (keepsInv_finishW h _ _))
  | cFS | cUnS | cEqS | cUeqS | cOltS | cUltS | cOleS | cUleS | cSfS | cNgleS | cSeqS | cNglS | cLtS | cNgeS
  | cLeS | cNgtS => exact keepsInv_compareS h _ _ _
  | cFD | cUnD | cEqD | cUeqD | cOltD | cUltD | cOleD | cUleD | cSfD | cNgleD | cSeqD | cNglD | cLtD | cNgeD
  | cLeD | cNgtD => exact keepsInv_compareD h _ _ _

/-! ## The step -/

/-- Settles O60: a step is an exception raised or an instruction run, then the sampling of the inputs. -/
theorem stepKeepsInvariant : Obligations.StepKeepsInvariant := by
  intro s t h hstep
  obtain ⟨_, u, hu, rfl⟩ := step_eq_next hstep
  refine inv_sampleInputs ?_
  rcases cycle_eq_next hu with ⟨e, he⟩ | ⟨_, i, _, _, _, _, hi⟩
  · exact keepsInv_raise h e u he
  · exact keepsInv_exec h i u hi

/-! ## Reset and launch (rules R45, R420, R421) -/

theorem isFresh_reset : State.reset.isFresh where
  zero := rfl
  inDelay := fun _ => rfl
  npc := fun _ => rfl
  loadPending := rfl
  fccFresh := rfl
  hiloAge := rfl
  dirty := rfl
  outcome := rfl

/-- A launch keeps what reset sets of the hidden state, whatever its parameters, entry and image. -/
theorem isFresh_launch (c : Config) (entry : Word) (image : Memory) : (State.launch c entry image).isFresh :=
  { isFresh_reset with
    inDelay := fun _ => rfl
    npc := fun _ => rfl }

/-- Settles O58: the fields reset and launch write, over what is common to both. -/
theorem resetAndLaunch : Obligations.ResetAndLaunch := by
  refine ⟨⟨isFresh_reset, rfl, rfl, rfl, rfl, rfl, rfl, rfl, rfl⟩, fun c entry image hal => ⟨?_, rfl⟩⟩
  exact ⟨isFresh_launch c entry image, rfl, rfl, hal, rfl⟩

/-- Settles O59: the reset values, field by field. -/
theorem resetHasInvariant : Obligations.ResetHasInvariant where
  zero := rfl
  mem := reset_mem_wf
  dirty := by decide
  status := by unfold within; decide
  cause := by unfold within; decide
  index := by unfold within; decide
  entryLo := by unfold within; decide
  entryHi := by unfold within; decide
  context := by unfold within; decide
  tlb := by unfold within; decide
  tlbSize := by decide
  random := by decide
  hiloAge := by decide
  running := fun _ => rfl
  noSlots := fun _ => rfl
  noLoadDelay := fun _ => ⟨rfl, rfl⟩
  noHiLoHazard := fun _ => rfl
  noDirty := fun _ => rfl

end Sys2Proof.Machine
end

section
/-! Registers, control and moves: register 0, the even/odd pairs of doubles, the step around an instruction, the
branches on a coprocessor's condition, the moves, the control and system registers, the raising instructions. -/

namespace Sys2Proof.Machine

/-! ## Registers (rules R21, R31, R292) -/

/-- Settles O8: the read after a write of a general register. -/
theorem registerZero : Obligations.RegisterZero := fun s r q v =>
  ⟨x_zero s, setX_zero s v, x_setX_same s r v, x_setX_of_ne s r q v⟩

theorem onEven_of_odd {regs : List Reg} {r : Reg} (hr : r ∈ regs) (hodd : r.toNat % 2 = 1) (k : Result) :
    State.onEven regs k = .refused .oddDoubleRegister := by
  have hbit : evenReg r = false := by
    have h : ∀ r : Reg, r.toNat % 2 = 1 → evenReg r = false := by decide
    exact h r hodd
  refine if_neg fun hall => ?_
  rw [List.all_eq_true.1 hall r hr] at hbit
  cases hbit

/-- An instruction that names doubles is one of coprocessor 1, and each register it names for one must be even. -/
theorem exec_of_doubleRegs (s : State) (i : Instr) (h : i.doubleRegs ≠ []) :
    ∃ k, exec i s = s.onCop 1 (State.onEven i.doubleRegs k) := by
  cases i with
  | absD | movD | negD | addD | divD | mulD | subD | cvtDS | cvtDW | cvtSD | cvtWD | cFD | cUnD | cEqD | cUeqD
  | cOltD | cUltD | cOleD | cUleD | cSfD | cNgleD | cSeqD | cNglD | cLtD | cNgeD | cLeD | cNgtD => exact ⟨_, rfl⟩
  | _ => exact absurd rfl h

/-- Settles O9: the read after a write of a pair, and the evenness check every instruction with doubles meets. -/
theorem doublePairs : Obligations.DoublePairs := by
  refine ⟨fun s r q v => ⟨rfl, ?_, ?_, d_setD s r v, fun h0 h1 => ?_⟩, fun s i r hgate hr hodd => ?_⟩
  · rw [f_setD, if_neg (reg_ne_succ r), if_pos rfl]
  · rw [f_setD, if_pos rfl]
  · rw [f_setD, if_neg h1, if_neg h0]
  · obtain ⟨k, hk⟩ := exec_of_doubleRegs s i (List.ne_nil_of_mem hr)
    rw [hk, onCop_of_gate hgate, onEven_of_odd hr hodd]

/-! ## The step around an instruction (rules R27, R44) -/

/-- The cycle of a ready state is what follows the decoding of its word. -/
theorem cycle_of_ready {s : State} {w : Word} (h : s.ready w) (run : Instr → State → Result) :
    s.cycle run = s.runDecoded run (decode s.cfg w) := by
  obtain ⟨_, hint, hfetch⟩ := h
  simp [State.cycle, hint, hfetch]

theorem step_of_ready {s : State} {w : Word} (h : s.ready w) :
    step s = mapNext State.sampleInputs (s.runDecoded exec (decode s.cfg w)) := by
  rw [step_running h.1, cycle_of_ready h]

/-- What the decoder reports of an instruction, `exec` would answer too, so only the hazard checks stand between. -/
theorem runDecoded_instr {s : State} {i : Instr} (h : s.hazard i = none) :
    s.runDecoded exec (.instr i) = exec i s := by
  unfold State.runDecoded
  cases hd : s.decodeStop i with
  | some st => simp [hd, exec_of_decodeStop hd]
  | none => simp [hd, h]

theorem runDecoded_hazard {s : State} {i : Instr} {r : Fault} (hd : s.decodeStop i = none)
    (h : s.hazard i = some r) : s.runDecoded exec (.instr i) = .fault r := by
  simp [State.runDecoded, hd, h]

theorem frame_sampleInputs (s : State) : Frame s s.sampleInputs [.intPins, .random, .draws] := by
  intro p hp
  cases p with
  | intPins | random | draws => simp at hp
  | _ => simp [Part.same]

/-- Settles O5: between a ready state and `exec` stand the decoder's reports and the hazard checks alone. -/
theorem stepRunsDecoded : Obligations.StepRunsDecoded := by
  refine ⟨fun s w i hready hdec hz => ?_, fun s w i r hready hdec hd hz => ?_,
    fun s => ⟨frame_sampleInputs s, ?_⟩⟩
  · rw [step_of_ready hready, hdec, runDecoded_instr hz]
  · rw [step_of_ready hready, hdec, runDecoded_hazard hd hz, mapNext_fault]
  · simp

/-! ## Branches on a coprocessor's condition (rules R35, R194, R195) -/

/-- The target of a branch as an integer: four times the signed offset past the next instruction (rule R190). -/
theorem branchTarget_eq (pc : Word) (offset : BitVec 16) :
    branchTarget pc offset = BitVec.ofInt 32 (pc.toNat + 4 + 4 * offset.toInt) := by
  have hoff : (offset ++ 0#2).toInt = 4 * offset.toInt := by rw [BitVec.toInt_append]; simp
  rw [branchTarget, BitVec.signExtend, hoff, BitVec.ofInt_add, BitVec.ofInt_add]
  simp

/-- A branch completes to its target where its condition holds, and changes nothing else. -/
theorem branch_spec (s : State) (taken : Bool) (offset : BitVec 16) :
    ∃ t, s.branch taken offset = .next t ∧ Frame s t [] ∧
      After s t
        { branches := true
          target := if taken then some (BitVec.ofInt 32 (s.pc.toNat + 4 + 4 * offset.toInt)) else none } := by
  rw [← branchTarget_eq]
  exact ⟨_, rfl, frame_complete (Frame.refl s _) _, after_complete _ rfl rfl rfl rfl rfl rfl rfl⟩

/-- A branch on a condition input uses up one draw, whichever sense it tests. -/
theorem branchOnInput_spec (s : State) (z : CopNum) (sense : Bool) (offset : BitVec 16) :
    ∃ t, s.branchOnInput z sense offset = .next t ∧ Frame s t [.draws] ∧
      After s t
        { branches := true
          target := if Config.freeCondition z s.draws == sense then
              some (BitVec.ofInt 32 (s.pc.toNat + 4 + 4 * offset.toInt)) else none } := by
  rw [← branchTarget_eq]
  exact ⟨_, rfl, frame_complete (frame_drawn s) _, after_complete _ rfl rfl rfl rfl rfl rfl rfl⟩

/-- The branches of one coprocessor on its input see the same condition, one the complement of the other. -/
theorem branchesIf_input {s : State} {z : CopNum} {onTrue onFalse : Instr} {offset : BitVec 16}
    (hgate : s.gate z = none) (ht : exec onTrue s = s.onCop z (s.branchOnInput z true offset))
    (hf : exec onFalse s = s.onCop z (s.branchOnInput z false offset)) :
    ∃ c : Bool, BranchesIf s onTrue c offset [.draws] ∧ BranchesIf s onFalse (!c) offset [.draws] := by
  refine ⟨Config.freeCondition z s.draws, ?_, ?_⟩
  · unfold BranchesIf
    rw [ht, onCop_of_gate hgate]
    simpa using branchOnInput_spec s z true offset
  · unfold BranchesIf
    rw [hf, onCop_of_gate hgate]
    simpa using branchOnInput_spec s z false offset

theorem branchesIf_fcc {s : State} {i : Instr} {taken : Bool} {offset : BitVec 16} (hgate : s.gate 1 = none)
    (hi : exec i s = s.onCop 1 (s.branch taken offset)) : BranchesIf s i taken offset [] := by
  unfold BranchesIf
  rw [hi, onCop_of_gate hgate]
  exact branch_spec s taken offset

/-- Settles O24: one completed branch, its condition `fcc` or the draw both senses share. -/
theorem coprocessorBranches : Obligations.CoprocessorBranches := fun _ _ =>
  ⟨fun h => ⟨branchesIf_fcc h rfl, branchesIf_fcc h rfl⟩, fun h => branchesIf_input h rfl rfl,
    fun h => branchesIf_input h rfl rfl, fun h => branchesIf_input h rfl rfl⟩

end Sys2Proof.Machine
end

section
/-! Moves between the general registers and the coprocessors (rules R33 to R40, R276 to R280), the instructions whose
effect is an exception, and floating-point arithmetic. -/

namespace Sys2Proof.Machine

/-! ## Completing after a write -/

/-- An instruction of coprocessor `z` that completes after the update `u` of `s`, where the coprocessor is usable: it
answers `u` moved on. What `u` leaves of the control state is `rfl` for the updates of one register. -/
theorem exec_completes {s u : State} {i : Instr} {z : CopNum} {c : Completion} {l : List Part} {Q : State → Prop}
    (hgate : s.gate z = none) (hi : exec i s = s.onCop z (u.complete c)) (hf : Frame s u l)
    (hQ : Q ((u.bookkeep c).advance c)) (hcfg : u.cfg = s.cfg := by rfl) (hpc : u.pc = s.pc := by rfl)
    (hnpc : u.npc = s.npc := by rfl) (hdel : u.inDelay = s.inDelay := by rfl)
    (hpend : u.loadPending = s.loadPending := by rfl) (hfresh : u.fccFresh = s.fccFresh := by rfl)
    (hage : u.hiloAge = s.hiloAge := by rfl) :
    ∃ t, exec i s = .next t ∧ After s t c ∧ Frame s t l ∧ Q t :=
  ⟨_, hi.trans (onCop_of_gate hgate _), after_complete c hcfg hpc hnpc hdel hpend hfresh hage,
    frame_complete hf c, hQ⟩

/-- A move into a general register completes with the register written, whatever it moves. -/
theorem exec_moves {s : State} {i : Instr} {z : CopNum} {rt : Reg} {v : Word} (hgate : s.gate z = none)
    (hi : exec i s = s.onCop z (s.finishMove rt v)) :
    ∃ t, exec i s = .next t ∧ After s t { pending := .gpr rt } ∧ Frame s t [.gpr rt] ∧ t.holds rt v := by
  refine exec_completes hgate hi (frame_setX s rt v) ?_ ?_ ?_ ?_ ?_ ?_ ?_ ?_ <;> simp [State.holds, x_setX]

theorem frame_cpr2 (s : State) (r : Reg) (v : Word) : Frame s { s with cpr2 := regSet s.cpr2 r v } [.cpr2 r] := by
  intro p hp
  cases p with
  | cpr2 q => simp_all [Part.same, regGet_regSet]
  | _ => rfl

theorem frame_ccr2 (s : State) (r : Reg) (v : Word) : Frame s { s with ccr2 := regSet s.ccr2 r v } [.ccr2 r] := by
  intro p hp
  cases p with
  | ccr2 q => simp_all [Part.same, regGet_regSet]
  | _ => rfl

theorem frame_cpr3 (s : State) (r : Reg) (v : Word) : Frame s { s with cpr3 := regSet s.cpr3 r v } [.cpr3 r] := by
  intro p hp
  cases p with
  | cpr3 q => simp_all [Part.same, regGet_regSet]
  | _ => rfl

theorem frame_ccr3 (s : State) (r : Reg) (v : Word) : Frame s { s with ccr3 := regSet s.ccr3 r v } [.ccr3 r] := by
  intro p hp
  cases p with
  | ccr3 q => simp_all [Part.same, regGet_regSet]
  | _ => rfl

theorem frame_fcr31 (s : State) (rm : BitVec 2) (c : Bool) : Frame s { s with rm := rm, fcc := c } [.rm, .fcc] := by
  intro p hp
  cases p with
  | rm | fcc => simp at hp
  | _ => rfl

/-! ## Coprocessors 1, 2 and 3 -/

/-- Settles O37: each move completes after the write of one register. -/
theorem coprocessorMoves : Obligations.CoprocessorMoves := by
  intro s rt rd
  refine ⟨fun h1 => ⟨exec_moves h1 rfl, ?_⟩, fun h2 => ⟨exec_moves h2 rfl, ?_, exec_moves h2 rfl, ?_⟩,
    fun h3 => ⟨exec_moves h3 rfl, ?_, exec_moves h3 rfl, ?_⟩⟩
  · exact exec_completes h1 rfl (frame_setF s rd _) (by simp [f_setF])
  · exact exec_completes h2 rfl (frame_cpr2 s rd _) (by simp [regGet_regSet])
  · exact exec_completes h2 rfl (frame_ccr2 s rd _) (by simp [regGet_regSet])
  · exact exec_completes h3 rfl (frame_cpr3 s rd _) (by simp [regGet_regSet])
  · exact exec_completes h3 rfl (frame_ccr3 s rd _) (by simp [regGet_regSet])

/-! ## The floating-point control registers (rules R33, R278, R279) -/

/-- The fields of the FCR31 image: RM, `C`, and the fields that read 0; the rest is drawn. -/
theorem fcr31Image_fields (c : Bool) (rm : BitVec 2) (free : Word) :
    (fcr31Image c rm free).extractLsb' 0 2 = rm ∧ (fcr31Image c rm free).getLsbD 23 = c ∧
      (fcr31Image c rm free).extractLsb' 7 5 = 0 ∧ (fcr31Image c rm free).extractLsb' 18 5 = 0 ∧
      (fcr31Image c rm free).extractLsb' 24 8 = 0 := by
  refine ⟨extract_low_append _ _, ?_, ?_, ?_, ?_⟩
  · cases c <;> simp only [fcr31Image, BitVec.getLsbD_append] <;> rfl
  all_goals
    refine BitVec.eq_of_getLsbD_eq fun k hk => ?_
    simp only [fcr31Image, BitVec.getLsbD_extractLsb', BitVec.getLsbD_append]
    split_ifs <;> try omega
    simp

/-- Settles O38: the image read, the two fields written, and the three ways of being refused. -/
theorem fpControl : Obligations.FpControl := by
  intro s rt rd hgate
  refine ⟨?_, exec_moves hgate rfl, fun h0 h31 => ?_, fun hen => ?_, fun h => ?_⟩
  · refine exec_completes hgate rfl
      (((frame_drawn s).mono ?_).trans ((frame_setX s.drawn rt _).mono ?_)) ?_ ?_ ?_ ?_ ?_ ?_ ?_ ?_
    case refine_3 =>
      intro h0
      rw [advance_x, bookkeep_x, x_setX_same _ _ _ h0]
      exact fcr31Image_fields s.fcc s.rm _
    all_goals simp
  · exact (onCop_of_gate hgate _).trans ((if_neg h31).trans (if_neg h0))
  · refine exec_completes (u := { s with rm := (s.x rt).extractLsb' 0 2, fcc := (s.x rt).getLsbD 23 }) hgate ?_
      (frame_fcr31 s _ _) (by simp)
    exact congrArg (s.onCop 1) (if_pos ⟨rfl, hen⟩)
  · refine (onCop_of_gate hgate _).trans (if_neg fun hok => ?_)
    exact h.elim (· hok.1) (· hok.2)

/-! ## The registers of coprocessor 0 (rules R36 to R40, R276, R280) -/

/-- A register of coprocessor 0 that reads a value is moved. -/
theorem execMfc0_of_read {s : State} {rd : Reg} {v : Word} (h : s.cp0Read rd = some v) (rt : Reg) :
    exec (.mfc0 rt rd) s = s.onCop 0 (s.finishMove rt v) := by
  change s.onCop 0 _ = _
  rw [h]

theorem execMfc0_of_reserved {s : State} {rd : Reg} (h : s.cp0Read rd = none) (rt : Reg) :
    exec (.mfc0 rt rd) s = s.onCop 0 (.refused .cp0Reserved) := by
  change s.onCop 0 _ = _
  rw [h]

theorem execMtc0_of_write {s u : State} {rt rd : Reg} (h : s.cp0Write rd (s.x rt) = some u) :
    exec (.mtc0 rt rd) s = s.onCop 0 (u.complete {}) := by
  change s.onCop 0 _ = _
  rw [h]

theorem execMtc0_of_refused {s : State} {rt rd : Reg} (h : s.cp0Write rd (s.x rt) = none) :
    exec (.mtc0 rt rd) s = s.onCop 0 (.refused .cp0Reserved) := by
  change s.onCop 0 _ = _
  rw [h]

/-- Six bits placed in a word, the rest 0. -/
theorem field_eq_shiftLeft {n m : Nat} (r : BitVec 6) (h : n + 6 + m = 32) :
    (0#n ++ r ++ 0#m).cast h = r.setWidth 32 <<< m := by
  refine BitVec.eq_of_getLsbD_eq fun k hk => ?_
  simp only [BitVec.getLsbD_cast, BitVec.getLsbD_append, BitVec.getLsbD_shiftLeft, BitVec.getLsbD_setWidth,
    BitVec.getLsbD_zero]
  by_cases hm : k < m
  · simp [hm]
  · by_cases h6 : k - m < 6
    · simp [hm, h6, hk, show k - m < 32 by omega]
    · simp [hm, h6, hk, BitVec.getLsbD_of_ge r (k - m) (by omega)]

theorem randomImage_eq (r : BitVec 6) : randomImage r = r.setWidth 32 <<< 8 :=
  field_eq_shiftLeft (n := 18) (m := 8) r rfl

theorem causeImage_eq (s : State) :
    s.causeImage = (s.cause &&& 0xB000037C) ||| (s.intPins.setWidth 32 <<< 10) :=
  congrArg ((s.cause &&& causeMask) ||| ·) (field_eq_shiftLeft (n := 16) (m := 10) s.intPins rfl)

/-- The numbers of rule R36 that no register has. -/
theorem cp0_reserved (s : State) {rd : Reg} (h : rd ∉ [0, 1, 2, 4, 8, 10, 12, 13, 14, 15]) (v : Word) :
    s.cp0Read rd = none ∧ s.cp0Write rd v = none := by
  simp only [List.mem_cons, List.not_mem_nil, or_false, not_or] at h
  obtain ⟨h0, h1, h2, h4, h8, h10, h12, h13, h14, h15⟩ := h
  simp only [State.cp0Read, State.cp0Write, h0, h1, h2, h4, h8, h10, h12, h13, h14, h15, if_false, or_self,
    and_self]

/-- Settles O39: the rows of `cp0Read`, two of them images built from fields. -/
theorem readSystemRegister : Obligations.ReadSystemRegister := by
  intro s rt hgate
  refine ⟨fun rd v hv => ?_, fun rd hrd => ?_⟩
  · refine exec_moves hgate (execMfc0_of_read ?_ rt)
    simp only [List.mem_cons, List.not_mem_nil, or_false, Prod.mk.injEq] at hv
    rcases hv with ⟨rfl, rfl⟩ | ⟨rfl, rfl⟩ | ⟨rfl, rfl⟩ | ⟨rfl, rfl⟩ | ⟨rfl, rfl⟩ | ⟨rfl, rfl⟩ | ⟨rfl, rfl⟩ |
      ⟨rfl, rfl⟩ | ⟨rfl, rfl⟩ | ⟨rfl, rfl⟩
    case inr.inl => exact congrArg some (randomImage_eq s.random)
    case inr.inr.inr.inr.inr.inr.inr.inl => exact congrArg some (causeImage_eq s)
    all_goals rfl
  · rw [execMfc0_of_reserved (cp0_reserved s hrd 0).1, onCop_of_gate hgate]

theorem frame_index (s : State) (w : Word) : Frame s { s with index := w } [.index] := by
  intro p hp
  cases p with
  | index => simp at hp
  | _ => rfl

theorem frame_entryLo (s : State) (w : Word) : Frame s { s with entryLo := w } [.entryLo] := by
  intro p hp
  cases p with
  | entryLo => simp at hp
  | _ => rfl

theorem frame_context (s : State) (w : Word) : Frame s { s with context := w } [.context] := by
  intro p hp
  cases p with
  | context => simp at hp
  | _ => rfl

theorem frame_entryHi (s : State) (w : Word) : Frame s { s with entryHi := w } [.entryHi] := by
  intro p hp
  cases p with
  | entryHi => simp at hp
  | _ => rfl

theorem frame_status (s : State) (w : Word) : Frame s { s with status := w } [.status] := by
  intro p hp
  cases p with
  | status => simp at hp
  | _ => rfl

theorem frame_cause (s : State) (w : Word) : Frame s { s with cause := w } [.cause] := by
  intro p hp
  cases p with
  | cause => simp at hp
  | _ => rfl

/-- A write under a mask, bit by bit, the mask's bits listed by a condition on their places. -/
theorem getLsbD_insertBits_of_mask {mask : Word} {p : Nat → Prop} [DecidablePred p]
    (hmask : ∀ k < 32, mask.getLsbD k = true ↔ p k) (old new : Word) :
    ∀ k < 32, (insertBits mask old new).getLsbD k = if p k then new.getLsbD k else old.getLsbD k := by
  intro k hk
  simp only [getLsbD_insertBits mask old new hk, hmask k hk]

/-- The bits RE, SwC and IsC of Status (rule R37). -/
theorem and_statusRefused_ne_zero {v : Word} :
    v &&& statusRefused ≠ 0 ↔ v.getLsbD 25 = true ∨ v.getLsbD 17 = true ∨ v.getLsbD 16 = true := by
  have hmask : ∀ k < 32, (~~~statusRefused).getLsbD k = true ↔ ¬(k = 25 ∨ k = 17 ∨ k = 16) := by decide
  have hwithin : v &&& statusRefused = 0 ↔ within (~~~statusRefused) v := by rw [within, BitVec.not_not]
  rw [ne_eq, hwithin, within_iff]
  constructor
  · intro h
    by_contra hnone
    refine h fun k hk hv => (hmask k hk).2 ?_
    rintro (rfl | rfl | rfl) <;> exact hnone (by simp_all)
  · rintro (hv | hv | hv) h
    · exact (hmask 25 (by decide)).1 (h 25 (by decide) hv) (by decide)
    · exact (hmask 17 (by decide)).1 (h 17 (by decide) hv) (by decide)
    · exact (hmask 16 (by decide)).1 (h 16 (by decide) hv) (by decide)

theorem cp0Write_status (s : State) (v : Word) : s.cp0Write 12 v =
    if v &&& statusRefused ≠ 0 then none else some { s with status := insertBits statusMask s.status v } := rfl

/-- The read-only registers of coprocessor 0 discard a write (rule R36). -/
theorem cp0Write_readOnly (s : State) {rd : Reg} (h : rd ∈ [(1 : Reg), 8, 14, 15]) (v : Word) :
    s.cp0Write rd v = some s := by
  simp only [List.mem_cons, List.not_mem_nil, or_false] at h
  rcases h with rfl | rfl | rfl | rfl <;> rfl

/-- Settles O40: the rows of `cp0Write`, each a write under a mask whose bits are those of the rule. -/
theorem writeSystemRegister : Obligations.WriteSystemRegister := by
  intro s rt hgate
  refine ⟨?_, ?_, ?_, ?_, ?_, fun rd hrd => ?_, ?_, fun rd hrd => ?_⟩
  · refine exec_completes hgate (execMtc0_of_write rfl) (frame_index s _) ?_
    rw [advance_index, bookkeep_index]
    exact getLsbD_insertBits_of_mask (by decide) s.index (s.x rt)
  · refine exec_completes hgate (execMtc0_of_write rfl) (frame_entryLo s _) ?_
    rw [advance_entryLo, bookkeep_entryLo]
    exact getLsbD_insertBits_of_mask (by decide) s.entryLo (s.x rt)
  · refine exec_completes hgate (execMtc0_of_write rfl) (frame_context s _) ?_
    rw [advance_context, bookkeep_context]
    exact getLsbD_insertBits_of_mask (by decide) s.context (s.x rt)
  · refine exec_completes hgate (execMtc0_of_write rfl) (frame_entryHi s _) ?_
    rw [advance_entryHi, bookkeep_entryHi]
    exact getLsbD_insertBits_of_mask (by decide) s.entryHi (s.x rt)
  · refine exec_completes hgate (execMtc0_of_write rfl) (frame_cause s _) ?_
    rw [advance_cause, bookkeep_cause]
    exact getLsbD_insertBits_of_mask (by decide) s.cause (s.x rt)
  · obtain ⟨t, ht, ha, hf, -⟩ := exec_completes (Q := fun _ => True) hgate
      (execMtc0_of_write (rt := rt) (cp0Write_readOnly s hrd _)) (Frame.refl s []) trivial
    exact ⟨t, ht, ha, hf⟩
  · split
    · next hset =>
      have hw := (cp0Write_status s (s.x rt)).trans (if_pos (and_statusRefused_ne_zero.2 hset))
      rw [execMtc0_of_refused hw, onCop_of_gate hgate]
    · next hclear =>
      have hw := (cp0Write_status s (s.x rt)).trans (if_neg fun h => hclear (and_statusRefused_ne_zero.1 h))
      refine exec_completes hgate (execMtc0_of_write hw) (frame_status s _) ?_
      rw [advance_status, bookkeep_status]
      exact getLsbD_insertBits_of_mask (by decide) s.status (s.x rt)
  · rw [execMtc0_of_refused (cp0_reserved s hrd _).2, onCop_of_gate hgate]

/-! ## Raising (rules R43, R278, R279, R351, R352, R361, R380) -/

theorem raise_answers (s : State) (e : Exc) : ∃ t, s.raise e = .next t := ⟨_, raise_eq s e⟩

/-- An instruction whose effect is an exception answers what raising it answers. -/
theorem exec_raises {s : State} {i : Instr} {e : Exc} (hi : exec i s = s.raise e) :
    ∃ t, exec i s = .next t ∧ s.raise e = .next t := by
  obtain ⟨t, ht⟩ := raise_answers s e
  exact ⟨t, hi.trans ht, ht⟩

/-- The model's test of usability is rule R101's. -/
theorem usable_iff {s : State} {z : CopNum} : s.usable z = true ↔ usableBy s z := by
  unfold State.usable usableBy State.cuBit State.userMode
  cases s.cfg.trapModel <;> simp

/-- The test of a coprocessor other than 0. -/
theorem gate_of_ne_zero (s : State) {z : CopNum} (hz : z ≠ 0) :
    s.gate z = if s.usable z then none else some (.exc (.coprocessorUnusable z)) :=
  if_neg fun h => hz h.1

theorem onCop_of_usable {s : State} {z : CopNum} (hz : z ≠ 0) (h : usableBy s z) (k : Result) : s.onCop z k = k :=
  onCop_of_gate ((gate_of_ne_zero s hz).trans (if_pos (usable_iff.2 h))) k

theorem onCop_of_unusable {s : State} {z : CopNum} (hz : z ≠ 0) (h : ¬usableBy s z) (k : Result) :
    s.onCop z k = s.raise (.coprocessorUnusable z) :=
  onCop_of_stop ((gate_of_ne_zero s hz).trans (if_neg (mt usable_iff.1 h))) k

/-- A stopped machine has no step (rule R43). -/
theorem step_of_stopped {s : State} {e : Exc} (h : s.outcome = .stopped e) : step s = .fault .runEnded := by
  simp [step, State.stepWith, h]

/-- Settles O41: raising always answers, and the test of a coprocessor is rule R101's. -/
theorem raisingInstructions : Obligations.RaisingInstructions := by
  have h2 : (2 : CopNum) ≠ 0 := by decide
  have h3 : (3 : CopNum) ≠ 0 := by decide
  intro s code rt rd cofun
  exact ⟨exec_raises rfl, exec_raises rfl, fun hgate => exec_raises (onCop_of_gate hgate _),
    fun hgate => exec_raises (onCop_of_gate hgate _), fun hu => onCop_of_usable h2 hu _,
    fun hu => exec_raises (onCop_of_unusable h2 hu _), fun hu => onCop_of_usable h3 hu _,
    fun hu => exec_raises (onCop_of_unusable h3 hu _),
    fun e => ⟨raise_answers s e, fun hm => ⟨raise_fault hm e, step_of_stopped rfl⟩⟩⟩

/-! ## Floating-point arithmetic (rules R33, R291, R293) -/

/-- A single-precision operation of a usable coprocessor 1 leaves its result, or some NaN. -/
theorem exec_single {s : State} {i : Instr} {fd : Reg} {r : Option Word} (hgate : s.gate 1 = none)
    (hi : exec i s = s.onCop 1 (s.finishS fd r)) :
    ∃ t, exec i s = .next t ∧ After s t {} ∧ Frame s t [.fpr fd, .draws] ∧ t.holdsSingle fd r := by
  rw [hi, onCop_of_gate hgate]
  exact finishS_spec s fd r

/-- A double-precision operation on even registers likewise. -/
theorem exec_double {s : State} {i : Instr} {regs : List Reg} {fd : Reg} {r : Option DWord}
    (hgate : s.gate 1 = none) (heven : regs.all evenReg = true)
    (hi : exec i s = s.onCop 1 (State.onEven regs (s.finishD fd r))) :
    ∃ t, exec i s = .next t ∧ After s t {} ∧ Frame s t [.fpr fd, .fpr (fd + 1), .draws] ∧ t.holdsDouble fd r := by
  rw [hi, onCop_of_gate hgate, State.onEven, if_pos heven]
  exact finishD_spec s fd r

/-- The two bits of RM name the four rounding modes (rule R33). -/
theorem roundMode_of_rm (s : State) : (s.rm = 0 → s.roundMode = .nearestEven) ∧
    (s.rm = 1 → s.roundMode = .towardZero) ∧ (s.rm = 2 → s.roundMode = .up) ∧
    (s.rm = 3 → s.roundMode = .down) := by
  unfold State.roundMode
  exact ⟨fun h => by rw [h]; rfl, fun h => by rw [h]; rfl, fun h => by rw [h]; rfl, fun h => by rw [h]; rfl⟩

/-- Settles O44: each operation ends in a result written or a NaN drawn. -/
theorem fpArithmetic : Obligations.FpArithmetic := by
  refine ⟨fun s => ?_, fun s rm a b x y h => ?_, fun s fd fs ft hgate => ?_⟩
  · obtain ⟨h0, h1, h2, h3⟩ := roundMode_of_rm s
    exact ⟨h0, h1, h2, h3, fun _ => fp_given s⟩
  · rw [fp_ieee754 s h]
    exact ⟨rfl, rfl, rfl, rfl, rfl, rfl, rfl, rfl⟩
  · refine ⟨exec_single hgate rfl, exec_single hgate rfl, exec_single hgate rfl, exec_single hgate rfl,
      fun hd hs ht => ?_⟩
    have heven : [fd, fs, ft].all evenReg = true := by simp [hd, hs, ht]
    exact ⟨exec_double hgate heven rfl, exec_double hgate heven rfl, exec_double hgate heven rfl,
      exec_double hgate heven rfl⟩

end Sys2Proof.Machine
end

section
/-! The hazard faults and what instructions read (rules R27, R28, R431 to R433). -/

namespace Sys2Proof.Machine

/-! ## What an instruction reads -/

/-- A double counts both registers of its pair, whichever of them names it (rule R431). -/
theorem mem_pairOf : ∀ {r q : Reg}, r ∈ pairOf q ↔ r.toNat / 2 = q.toNat / 2 := by
  decide

/-- The first clause of O56: the general registers an instruction reads (rule R431). -/
theorem mem_gprSources (i : Instr) (r : Reg) : r ∈ gprSources i ↔ ∃ (rd rs rt : Reg) (imm : BitVec 16),
      ((r = rs ∨ r = rt) ∧ i ∈
        [Instr.add rd rs rt, .addu rd rs rt, .sub rd rs rt, .subu rd rs rt, .and rd rs rt, .or rd rs rt,
        .xor rd rs rt, .nor rd rs rt, .slt rd rs rt, .sltu rd rs rt, .sllv rd rt rs, .srlv rd rt rs,
        .srav rd rt rs, .mult rs rt, .multu rs rt, .div rs rt, .divu rs rt, .beq rs rt imm, .bne rs rt imm,
        .sb rt rs imm, .sh rt rs imm, .sw rt rs imm, .swl rt rs imm, .swr rt rs imm]) ∨
      (r = rs ∧ i ∈ [Instr.addi rt rs imm, .addiu rt rs imm, .andi rt rs imm, .ori rt rs imm, .xori rt rs imm,
        .slti rt rs imm, .sltiu rt rs imm, .blez rs imm, .bgtz rs imm, .bltz rs imm, .bgez rs imm,
        .bltzal rs imm, .bgezal rs imm, .jr rs, .jalr rs rd, .mthi rs, .mtlo rs, .lb rt rs imm,
        .lbu rt rs imm, .lh rt rs imm, .lhu rt rs imm, .lw rt rs imm, .lwl rt rs imm, .lwr rt rs imm,
        .lwc0 rt rs imm, .lwc1 rt rs imm, .lwc2 rt rs imm, .lwc3 rt rs imm, .swc0 rt rs imm, .swc1 rt rs imm,
        .swc2 rt rs imm, .swc3 rt rs imm]) ∨
      (r = rt ∧ i ∈
        [Instr.sll rd rt rs, .srl rd rt rs, .sra rd rt rs, .mtc0 rt rd, .mtc1 rt rd, .mtc2 rt rd, .mtc3 rt rd,
        .ctc0 rt rd, .ctc1 rt rd, .ctc2 rt rd, .ctc3 rt rd]) := by
  constructor
  · intro h
    cases i with
    | add rd rs rt | addu rd rs rt | sub rd rs rt | subu rd rs rt | and rd rs rt | or rd rs rt | xor rd rs rt
    | nor rd rs rt | slt rd rs rt | sltu rd rs rt | sllv rd rt rs | srlv rd rt rs | srav rd rt rs =>
      exact ⟨rd, rs, rt, 0, .inl ⟨by simpa [gprSources] using h, by simp⟩⟩
    | mult rs rt | multu rs rt | div rs rt | divu rs rt =>
      exact ⟨0, rs, rt, 0, .inl ⟨by simpa [gprSources] using h, by simp⟩⟩
    | beq rs rt imm | bne rs rt imm | sb rt rs imm | sh rt rs imm | sw rt rs imm | swl rt rs imm | swr rt rs imm =>
      exact ⟨0, rs, rt, imm, .inl ⟨by simpa [gprSources] using h, by simp⟩⟩
    | addi rt rs imm | addiu rt rs imm | andi rt rs imm | ori rt rs imm | xori rt rs imm | slti rt rs imm
    | sltiu rt rs imm | lb rt rs imm | lbu rt rs imm | lh rt rs imm | lhu rt rs imm | lw rt rs imm
    | lwl rt rs imm | lwr rt rs imm | lwc0 rt rs imm | lwc1 rt rs imm | lwc2 rt rs imm | lwc3 rt rs imm
    | swc0 rt rs imm | swc1 rt rs imm | swc2 rt rs imm | swc3 rt rs imm =>
      exact ⟨0, rs, rt, imm, .inr (.inl ⟨by simpa [gprSources] using h, by simp⟩)⟩
    | blez rs imm | bgtz rs imm | bltz rs imm | bgez rs imm | bltzal rs imm | bgezal rs imm =>
      exact ⟨0, rs, 0, imm, .inr (.inl ⟨by simpa [gprSources] using h, by simp⟩)⟩
    | jr rs | mthi rs | mtlo rs => exact ⟨0, rs, 0, 0, .inr (.inl ⟨by simpa [gprSources] using h, by simp⟩)⟩
    | jalr rs rd => exact ⟨rd, rs, 0, 0, .inr (.inl ⟨by simpa [gprSources] using h, by simp⟩)⟩
    | sll rd rt shamt | srl rd rt shamt | sra rd rt shamt =>
      exact ⟨rd, shamt, rt, 0, .inr (.inr ⟨by simpa [gprSources] using h, by simp⟩)⟩
    | mtc0 rt rd | mtc1 rt rd | mtc2 rt rd | mtc3 rt rd | ctc0 rt rd | ctc1 rt rd | ctc2 rt rd | ctc3 rt rd =>
      exact ⟨rd, 0, rt, 0, .inr (.inr ⟨by simpa [gprSources] using h, by simp⟩)⟩
    | _ => exact absurd h (by simp [gprSources])
  · rintro ⟨rd, rs, rt, imm, ⟨hr, hi⟩ | ⟨rfl, hi⟩ | ⟨rfl, hi⟩⟩
    · have hsrc : gprSources i = [rs, rt] := by fin_cases hi <;> rfl
      simpa [hsrc] using hr
    · have hsrc : gprSources i = [r] := by fin_cases hi <;> rfl
      simp [hsrc]
    · have hsrc : gprSources i = [r] := by fin_cases hi <;> rfl
      simp [hsrc]

/-- The second clause of O56: the floating-point registers an instruction reads (rule R431). -/
theorem mem_fprSources (i : Instr) (r : Reg) : r ∈ fprSources i ↔ ∃ (fd fs ft : Reg) (imm : BitVec 16),
      ((r = fs ∨ r = ft) ∧ i ∈
        [Instr.addS fd fs ft, .subS fd fs ft, .mulS fd fs ft, .divS fd fs ft, .cFS fs ft, .cUnS fs ft,
        .cEqS fs ft, .cUeqS fs ft, .cOltS fs ft, .cUltS fs ft, .cOleS fs ft, .cUleS fs ft, .cSfS fs ft,
        .cNgleS fs ft, .cSeqS fs ft, .cNglS fs ft, .cLtS fs ft, .cNgeS fs ft, .cLeS fs ft, .cNgtS fs ft]) ∨
      ((r.toNat / 2 = fs.toNat / 2 ∨ r.toNat / 2 = ft.toNat / 2) ∧ i ∈
        [Instr.addD fd fs ft, .subD fd fs ft, .mulD fd fs ft, .divD fd fs ft, .cFD fs ft, .cUnD fs ft,
        .cEqD fs ft, .cUeqD fs ft, .cOltD fs ft, .cUltD fs ft, .cOleD fs ft, .cUleD fs ft, .cSfD fs ft,
        .cNgleD fs ft, .cSeqD fs ft, .cNglD fs ft, .cLtD fs ft, .cNgeD fs ft, .cLeD fs ft, .cNgtD fs ft]) ∨
      (r = fs ∧ i ∈
        [Instr.absS fd fs, .movS fd fs, .negS fd fs, .cvtDS fd fs, .cvtWS fd fs, .cvtDW fd fs, .cvtSW fd fs]) ∨
      (r.toNat / 2 = fs.toNat / 2 ∧ i ∈ [Instr.absD fd fs, .movD fd fs, .negD fd fs, .cvtSD fd fs, .cvtWD fd fs]) ∨
      (r = ft ∧ i ∈ [Instr.swc1 ft fs imm, .mfc1 fs ft]) := by
  constructor
  · intro h
    cases i with
    | addS fd fs ft | subS fd fs ft | mulS fd fs ft | divS fd fs ft =>
      exact ⟨fd, fs, ft, 0, .inl ⟨by simpa [fprSources] using h, by simp⟩⟩
    | cFS fs ft | cUnS fs ft | cEqS fs ft | cUeqS fs ft | cOltS fs ft | cUltS fs ft | cOleS fs ft | cUleS fs ft
    | cSfS fs ft | cNgleS fs ft | cSeqS fs ft | cNglS fs ft | cLtS fs ft | cNgeS fs ft | cLeS fs ft
    | cNgtS fs ft => exact ⟨0, fs, ft, 0, .inl ⟨by simpa [fprSources] using h, by simp⟩⟩
    | addD fd fs ft | subD fd fs ft | mulD fd fs ft | divD fd fs ft =>
      exact ⟨fd, fs, ft, 0, .inr (.inl ⟨by simpa [fprSources, mem_pairOf] using h, by simp⟩)⟩
    | cFD fs ft | cUnD fs ft | cEqD fs ft | cUeqD fs ft | cOltD fs ft | cUltD fs ft | cOleD fs ft | cUleD fs ft
    | cSfD fs ft | cNgleD fs ft | cSeqD fs ft | cNglD fs ft | cLtD fs ft | cNgeD fs ft | cLeD fs ft
    | cNgtD fs ft => exact ⟨0, fs, ft, 0, .inr (.inl ⟨by simpa [fprSources, mem_pairOf] using h, by simp⟩)⟩
    | absS fd fs | movS fd fs | negS fd fs | cvtDS fd fs | cvtWS fd fs | cvtDW fd fs | cvtSW fd fs =>
      exact ⟨fd, fs, 0, 0, .inr (.inr (.inl ⟨by simpa [fprSources] using h, by simp⟩))⟩
    | absD fd fs | movD fd fs | negD fd fs | cvtSD fd fs | cvtWD fd fs =>
      exact ⟨fd, fs, 0, 0, .inr (.inr (.inr (.inl ⟨by simpa [fprSources, mem_pairOf] using h, by simp⟩)))⟩
    | swc1 ft base imm =>
      exact ⟨0, base, ft, imm, .inr (.inr (.inr (.inr ⟨by simpa [fprSources] using h, by simp⟩)))⟩
    | mfc1 rt ft => exact ⟨0, rt, ft, 0, .inr (.inr (.inr (.inr ⟨by simpa [fprSources] using h, by simp⟩)))⟩
    | _ => exact absurd h (by simp [fprSources])
  · rintro ⟨fd, fs, ft, imm, ⟨hr, hi⟩ | ⟨hr, hi⟩ | ⟨rfl, hi⟩ | ⟨hr, hi⟩ | ⟨rfl, hi⟩⟩
    · have hsrc : fprSources i = [fs, ft] := by fin_cases hi <;> rfl
      simpa [hsrc] using hr
    · have hsrc : fprSources i = pairOf fs ++ pairOf ft := by fin_cases hi <;> rfl
      simpa [hsrc, mem_pairOf] using hr
    · have hsrc : fprSources i = [r] := by fin_cases hi <;> rfl
      simp [hsrc]
    · have hsrc : fprSources i = pairOf fs := by fin_cases hi <;> rfl
      simpa [hsrc, mem_pairOf] using hr
    · have hsrc : fprSources i = [r] := by fin_cases hi <;> rfl
      simp [hsrc]

/-- The third clause of O56: the branches and jumps of rule R27. -/
theorem isBranch_iff (i : Instr) : isBranch i = true ↔
    ∃ (rd rs rt : Reg) (imm : BitVec 16) (t : BitVec 26), i ∈
    [Instr.j t, .jal t, .jr rs, .jalr rs rd, .beq rs rt imm, .bne rs rt imm, .blez rs imm, .bgtz rs imm,
        .bltz rs imm, .bgez rs imm, .bltzal rs imm, .bgezal rs imm, .bc0f imm, .bc0t imm, .bc1f imm,
        .bc1t imm, .bc2f imm, .bc2t imm, .bc3f imm, .bc3t imm] := by
  constructor
  · intro h
    cases i with
    | j t | jal t => exact ⟨0, 0, 0, 0, t, by simp⟩
    | jr rs => exact ⟨0, rs, 0, 0, 0, by simp⟩
    | jalr rs rd => exact ⟨rd, rs, 0, 0, 0, by simp⟩
    | beq rs rt imm | bne rs rt imm => exact ⟨0, rs, rt, imm, 0, by simp⟩
    | blez rs imm | bgtz rs imm | bltz rs imm | bgez rs imm | bltzal rs imm | bgezal rs imm =>
      exact ⟨0, rs, 0, imm, 0, by simp⟩
    | bc0f imm | bc0t imm | bc1f imm | bc1t imm | bc2f imm | bc2t imm | bc3f imm | bc3t imm =>
      exact ⟨0, 0, 0, imm, 0, by simp⟩
    | _ => cases h
  · rintro ⟨rd, rs, rt, imm, t, hi⟩
    fin_cases hi <;> rfl

/-! ## The checks -/

theorem readsFcc_iff {i : Instr} : readsFcc i = true ↔ ∃ offset, i = .bc1t offset ∨ i = .bc1f offset := by
  constructor
  · intro h
    cases i with
    | bc1t offset => exact ⟨offset, .inl rfl⟩
    | bc1f offset => exact ⟨offset, .inr rfl⟩
    | _ => cases h
  · rintro ⟨offset, rfl | rfl⟩ <;> rfl

/-- No branch writes `hi` or `lo`. -/
theorem writesHiLo_of_isBranch {i : Instr} (h : isBranch i = true) : writesHiLo i = false := by
  obtain ⟨rd, rs, rt, imm, t, hi⟩ := (isBranch_iff i).1 h
  fin_cases hi <;> rfl

/-- A branch on `fcc` reads no register, so no load before it can stop it. -/
theorem loadUse_of_readsFcc {i : Instr} (h : readsFcc i = true) (p : Pending) : loadUse p i = false := by
  obtain ⟨offset, rfl | rfl⟩ := readsFcc_iff.1 h <;> cases p <;> simp [loadUse, gprSources, fprSources]

theorem loadUse_eq_false {p : Pending} {i : Instr} (hg : ∀ r, r ≠ 0 → p = .gpr r → r ∉ gprSources i)
    (hf : ∀ r, p = .fpr r → r ∉ fprSources i) : loadUse p i = false := by
  cases p with
  | none => rfl
  | gpr r => by_cases h0 : r = 0 <;> simp_all [loadUse]
  | fpr r => simp_all [loadUse]

theorem hazard_loadUse {s : State} {i : Instr} (hld : s.cfg.loadDelay = true)
    (hu : loadUse s.loadPending i = true) : s.hazard i = some .loadUseHazard := by
  simp [State.hazard, hld, hu]

theorem hazard_hiLo {s : State} {i : Instr} (hhz : s.cfg.hiloHazard = true) (hu : loadUse s.loadPending i = false)
    (hw : writesHiLo i = true) (hage : s.hiloAge < 2) : s.hazard i = some .hiLoHazard := by
  simp [State.hazard, hhz, hu, hw, hage]

theorem hazard_fcc {s : State} {i : Instr} (hld : s.cfg.loadDelay = true) (hfresh : s.fccFresh = true)
    (hr : readsFcc i = true) : s.hazard i = some .fccHazard := by
  have hw : writesHiLo i = false := by obtain ⟨offset, rfl | rfl⟩ := readsFcc_iff.1 hr <;> rfl
  simp [State.hazard, hld, loadUse_of_readsFcc hr, hw, hr, hfresh]

theorem hazard_delaySlot {s : State} {i : Instr} (hds : s.cfg.delaySlots = true) (hslot : s.inDelay = true)
    (hb : isBranch i = true) (hu : (s.cfg.loadDelay && loadUse s.loadPending i) = false)
    (hf : (s.cfg.loadDelay && readsFcc i && s.fccFresh) = false) : s.hazard i = some .branchInDelaySlot := by
  simp [State.hazard, hds, hslot, hb, hu, hf, writesHiLo_of_isBranch hb]

/-- Settles O56: what each check reads, and the order of the checks. -/
theorem hazards : Obligations.Hazards := by
  refine ⟨mem_gprSources, mem_fprSources, isBranch_iff, fun s i => ⟨?_, ?_, ?_, ?_, ?_, ?_, ?_⟩⟩
  · intro hld r h0 hp hr
    exact hazard_loadUse hld (by rw [hp]; exact Bool.and_eq_true_iff.2 ⟨by simpa using h0, by simpa using hr⟩)
  · intro hld r hp hr
    exact hazard_loadUse hld (by simp [hp, loadUse, hr])
  · intro hhz hp hage rs rt hi
    exact hazard_hiLo hhz (by rw [hp]; rfl) (by fin_cases hi <;> rfl) hage
  · intro hld hfresh offset hi
    exact hazard_fcc hld hfresh (readsFcc_iff.2 ⟨offset, hi⟩)
  · intro hds hslot hb hnone
    cases hld : s.cfg.loadDelay with
    | false => exact hazard_delaySlot hds hslot hb (by rw [hld]; rfl) (by rw [hld]; rfl)
    | true =>
      obtain ⟨hgpr, hfpr, hfcc⟩ := hnone hld
      refine hazard_delaySlot hds hslot hb ?_ ?_
      · rw [loadUse_eq_false hgpr hfpr, Bool.and_false]
      · by_contra hne
        simp only [Bool.and_eq_true, Bool.not_eq_false] at hne
        obtain ⟨⟨_, hreads⟩, hfresh⟩ := hne
        obtain ⟨offset, hi⟩ := readsFcc_iff.1 hreads
        exact hi.elim (hfcc hfresh offset).1 (hfcc hfresh offset).2
  · intro hld hhz hds
    simp [State.hazard, hld, hhz, hds]
  · intro hp hage hfresh hslot
    simp [State.hazard, hp, loadUse, hfresh, hslot, Nat.not_lt.2 hage]

end Sys2Proof.Machine
end

section
/-! The address space and the checks of an access: translation, segments, `State.reach` and `State.reachPart` (rules
R54, R60 to R64, R231, R232). -/

namespace Sys2Proof.Machine

/-! ## Translation (rule R63) -/

/-- The matching entries the model collects are the hits of rule R63, each with its index. -/
theorem mem_tlbMatches {s : State} {va : Word} {p : TlbEntry × Nat} :
    p ∈ tlbMatches s.tlb (va.extractLsb' 12 20) s.asid ↔ tlbHit s va p.2 p.1 := by
  simp only [tlbMatches, TlbEntry.matchesPage, List.mem_filter, List.mem_zipIdx_iff_getElem?, Bool.and_eq_true,
    Bool.or_eq_true, decide_eq_true_eq]
  rfl

/-- The matching entries have indices of their own. -/
theorem tlbMatches_nodup (tlb : List TlbEntry) (vpn : BitVec 20) (asid : BitVec 6) :
    ((tlbMatches tlb vpn asid).map Prod.snd).Nodup := by
  have hidx : (tlb.zipIdx.map Prod.snd).Nodup := by
    rw [List.zipIdx_map_snd]; exact List.nodup_range' 1
  exact hidx.sublist (List.filter_sublist.map _)

theorem translate_of_no_hit {s : State} {va : Word} (h : ∀ i e, ¬tlbHit s va i e) (k : Access) :
    s.translate va k = .error (.exc (tlbMiss k va true)) := by
  have hnil : tlbMatches s.tlb (va.extractLsb' 12 20) s.asid = [] :=
    List.eq_nil_iff_forall_not_mem.2 fun p hp => h _ _ (mem_tlbMatches.1 hp)
  simp [State.translate, hnil]

theorem translate_of_two_hits {s : State} {va : Word} {i j : Nat} {e f : TlbEntry} (hij : i ≠ j)
    (hi : tlbHit s va i e) (hj : tlbHit s va j f) (k : Access) :
    s.translate va k = .error (.fault .tlbMultipleMatch) := by
  have hi : (e, i) ∈ tlbMatches s.tlb (va.extractLsb' 12 20) s.asid := mem_tlbMatches.2 hi
  have hj : (f, j) ∈ tlbMatches s.tlb (va.extractLsb' 12 20) s.asid := mem_tlbMatches.2 hj
  unfold State.translate
  split
  · next hl => simp [hl] at hi
  · next hl =>
    rw [hl, List.mem_singleton] at hi hj
    exact absurd (congrArg Prod.snd (hi.trans hj.symm)) hij
  · rfl

/-- The only hit is the only matching entry. -/
theorem tlbMatches_of_unique {s : State} {va : Word} {i : Nat} {e : TlbEntry} (hi : tlbHit s va i e)
    (h : ∀ j f, tlbHit s va j f → j = i) : tlbMatches s.tlb (va.extractLsb' 12 20) s.asid = [(e, i)] := by
  have hnodup := tlbMatches_nodup s.tlb (va.extractLsb' 12 20) s.asid
  have hi : (e, i) ∈ tlbMatches s.tlb (va.extractLsb' 12 20) s.asid := mem_tlbMatches.2 hi
  have h : ∀ p ∈ tlbMatches s.tlb (va.extractLsb' 12 20) s.asid, p.2 = i := fun p hp => h _ _ (mem_tlbMatches.1 hp)
  match hl : tlbMatches s.tlb (va.extractLsb' 12 20) s.asid with
  | [] => simp [hl] at hi
  | [p] => rw [hl, List.mem_singleton] at hi; rw [hi]
  | p :: q :: l =>
    rw [hl] at h hnodup
    have hpq : p.2 = q.2 := (h p (by simp)).trans (h q (by simp)).symm
    simp [hpq] at hnodup

theorem translate_of_unique_hit {s : State} {va : Word} {i : Nat} {e : TlbEntry} (hi : tlbHit s va i e)
    (h : ∀ j f, tlbHit s va j f → j = i) (k : Access) : s.translate va k =
      if e.lo.getLsbD 9 = false then .error (.exc (tlbMiss k va false))
      else if k = .store ∧ e.lo.getLsbD 10 = false then .error (.exc (.tlbMod va))
      else .ok (e.lo.extractLsb' 12 20 ++ va.extractLsb' 0 12) := by
  unfold State.translate
  rw [tlbMatches_of_unique hi h]
  rfl

/-- Settles O27: no matching entry, two of them, or one. -/
theorem translation : Obligations.Translation := fun _ _ k =>
  ⟨fun h => translate_of_no_hit h k, fun _ _ _ _ hij hi hj => translate_of_two_hits hij hi hj k,
    fun _ _ hi h => translate_of_unique_hit hi h k⟩

/-! ## Segments (rules R61, R62) -/

/-- Bit 31 tells the upper half of the address space. -/
theorem getLsbD_31 (va : Word) : va.getLsbD 31 = decide (0x80000000 ≤ va.toNat) := by
  rw [BitVec.getLsbD, Nat.testBit_eq_decide_div_mod_eq]
  have := va.isLt
  exact decide_eq_decide.2 (by omega)

/-- The top three bits tell the segment of 2^29 bytes. -/
theorem segment_eq_iff (va : Word) (n : BitVec 3) : va.extractLsb' 29 3 = n ↔ va.toNat / 0x20000000 = n.toNat := by
  have := va.isLt
  rw [← BitVec.toNat_inj, BitVec.extractLsb'_toNat, Nat.shiftRight_eq_div_pow]
  omega

theorem physical_fault {s : State} (h : s.cfg.trapModel = .fault) (va : Word) (k : Access) :
    s.physical va k = .ok va := by
  simp [State.physical, h]

/-- The physical address in the `mips1` space, the segments given by ranges. -/
theorem physical_mips1 {s : State} (h : s.cfg.trapModel = .mips1) (va : Word) (k : Access) : s.physical va k =
    if s.status.getLsbD 1 = true ∧ 0x80000000 ≤ va.toNat then .error (.exc (addressError k va))
    else if va.toNat / 0x20000000 = 4 then .ok (va - 0x80000000)
    else if va.toNat / 0x20000000 = 5 then .ok (va - 0xA0000000)
    else s.translate va k := by
  simp only [State.physical, h, State.userMode, getLsbD_31, segment_eq_iff, Bool.and_eq_true, decide_eq_true_eq]
  rfl

/-- Settles O26: the four ranges of the `mips1` space, and the flat space. -/
theorem segments : Obligations.Segments := by
  refine fun s va k => ⟨fun h => physical_fault h va k, fun h => ?_⟩
  have hva := va.isLt
  have hnotUser (hkernel : s.status.getLsbD 1 = false) : ¬(s.status.getLsbD 1 = true ∧ 0x80000000 ≤ va.toNat) :=
    fun hu => by rw [hkernel] at hu; exact Bool.noConfusion hu.1
  rw [physical_mips1 h]
  refine ⟨fun hlow => ?_, fun huser hhigh => ?_, fun hkernel hlo hhi => ⟨va - 0x80000000, ?_, ?_⟩,
    fun hkernel hlo hhi => ⟨va - 0xA0000000, ?_, ?_⟩, fun hkernel hhigh => ?_⟩
  · rw [if_neg (by omega), if_neg (by omega), if_neg (by omega)]
  · rw [if_pos ⟨huser, hhigh⟩]
  · rw [if_neg (hnotUser hkernel), if_pos (by omega)]
  · exact BitVec.toNat_sub_of_le hlo
  · rw [if_neg (hnotUser hkernel), if_neg (by omega), if_pos (by omega)]
  · exact BitVec.toNat_sub_of_le hlo
  · rw [if_neg (hnotUser hkernel), if_neg (by omega), if_neg (by omega)]

/-! ## The checks of one access (rules R54, R60, R64, R231, R232) -/

theorem admitAll_of_all {s : State} {addrs : List Nat} (h : ∀ a ∈ addrs, admits s.cfg.memDomain a = true)
    (k : Access) : s.admitAll k addrs = .ok () := if_pos (List.all_eq_true.2 h)

theorem admitAll_of_refused {s : State} {addrs : List Nat} {a : Nat} (ha : a ∈ addrs)
    (h : admits s.cfg.memDomain a = false) (k : Access) : s.admitAll k addrs = .error (.exc (busError k)) :=
  if_neg fun hall => by rw [List.all_eq_true.1 hall a ha] at h; cases h

theorem reach_of_misaligned {s : State} {va : Word} {n : Nat} (h : va.toNat % n ≠ 0) (k : Access) :
    s.reach va n k = .error (.exc (addressError k va)) := if_pos h

theorem reach_of_physical_error {s : State} {va : Word} {n : Nat} {k : Access} {e : Stop} (hal : va.toNat % n = 0)
    (h : s.physical va k = .error e) : s.reach va n k = .error e := by
  simp [State.reach, hal, h]

theorem reach_of_admitted {s : State} {va pa : Word} {n : Nat} {k : Access} (hal : va.toNat % n = 0)
    (h : s.physical va k = .ok pa) (hadm : ∀ i < n, admits s.cfg.memDomain (pa.toNat + i) = true) :
    s.reach va n k = .ok pa.toNat := by
  have hall := admitAll_of_all (s := s) (addrs := (List.range n).map fun i => pa.toNat + i)
    (by simpa using hadm) k
  simp [State.reach, hal, h, hall]

theorem reach_of_refused {s : State} {va pa : Word} {n i : Nat} {k : Access} (hal : va.toNat % n = 0)
    (h : s.physical va k = .ok pa) (hi : i < n) (hadm : admits s.cfg.memDomain (pa.toNat + i) = false) :
    s.reach va n k = .error (.exc (busError k)) := by
  have hbus := admitAll_of_refused (List.mem_map.2 ⟨i, List.mem_range.2 hi, rfl⟩) hadm k
  simp [State.reach, hal, h, hbus]

/-- The user-mode check of the segments reports what the alignment check does, so their order does not show. -/
theorem reach_of_user {s : State} {va : Word} (hm : s.cfg.trapModel = .mips1) (hu : s.status.getLsbD 1 = true)
    (h : 0x80000000 ≤ va.toNat) (n : Nat) (k : Access) : s.reach va n k = .error (.exc (addressError k va)) := by
  by_cases hal : va.toNat % n = 0
  · exact reach_of_physical_error hal (by rw [physical_mips1 hm, if_pos ⟨hu, h⟩])
  · exact reach_of_misaligned hal k

theorem reachPart_of_physical_error {s : State} {va : Word} {k : Access} {e : Stop} (h : s.physical va k = .error e)
    (left : Bool) : s.reachPart left va k = .error e := by
  simp [State.reachPart, h]

/-- A left or right access whose touched bytes, those from the address to the end of its aligned word on the
instruction's side, are admitted. -/
theorem reachPart_of_admitted {s : State} {left : Bool} {va pa : Word} {k : Access} (h : s.physical va k = .ok pa)
    (hadm : ∀ i < 4, (if left = s.cfg.bigEndian then va.toNat % 4 ≤ i else i ≤ va.toNat % 4) →
      admits s.cfg.memDomain (pa.toNat / 4 * 4 + i) = true) :
    s.reachPart left va k = .ok (pa.toNat / 4 * 4) := by
  have hbase : pa.toNat - pa.toNat % 4 = pa.toNat / 4 * 4 := by omega
  have hall := admitAll_of_all (s := s)
    (addrs := (laneOffsets left s.cfg.bigEndian (va.toNat % 4)).map fun o => pa.toNat / 4 * 4 + o) (by
      simp only [List.forall_mem_map, mem_laneOffsets left s.cfg.bigEndian (Nat.mod_lt va.toNat four_pos)]
      exact fun o ho => hadm o ho.1 ho.2) k
  simp [State.reachPart, h, hbase, hall]

theorem reachPart_of_refused {s : State} {left : Bool} {va pa : Word} {k : Access} {i : Nat}
    (h : s.physical va k = .ok pa) (hi : i < 4)
    (hside : if left = s.cfg.bigEndian then va.toNat % 4 ≤ i else i ≤ va.toNat % 4)
    (hadm : admits s.cfg.memDomain (pa.toNat / 4 * 4 + i) = false) :
    s.reachPart left va k = .error (.exc (busError k)) := by
  have hbase : pa.toNat - pa.toNat % 4 = pa.toNat / 4 * 4 := by omega
  have hlane := (mem_laneOffsets left s.cfg.bigEndian (Nat.mod_lt va.toNat four_pos)).2 ⟨hi, hside⟩
  have hbus := admitAll_of_refused (List.mem_map.2 ⟨i, hlane, rfl⟩) hadm k
  simp [State.reachPart, h, hbase, hbus]

end Sys2Proof.Machine
end

section
/-! What stops an access is what the instruction or the fetch reports (rules R54 to R56, R60, R67, R231, R373, R376,
R383). -/

namespace Sys2Proof.Machine

/-! ## Loads and stores that fail their checks -/

theorem finishLoad_of_error (s : State) (rt : Reg) {r : Except Stop Word} {e : Stop} (h : r = .error e) :
    s.finishLoad rt r = s.stop e := by rw [h]; rfl

theorem loadThen_of_error (s : State) {r : Except Stop Word} {e : Stop} (h : r = .error e) (k : Word → Result) :
    s.loadThen r k = s.stop e := by rw [h]; rfl

theorem finishStore_of_error (s : State) {r : Except Stop State} {e : Stop} (h : r = .error e) :
    s.finishStore r = s.stop e := by rw [h]; rfl

section
variable {s : State} {rt base : Reg} {offset : BitVec 16} {e : Stop}

theorem exec_byteLoad_of_error (h : s.reach (s.ea base offset) 1 .load = .error e) :
    ∀ i ∈ [Instr.lb rt base offset, .lbu rt base offset], exec i s = s.stop e := by
  have hload := loadByte_error h
  rw [List.forall_mem_cons, List.forall_mem_singleton]
  exact ⟨finishLoad_of_error s rt (by rw [hload]; rfl), finishLoad_of_error s rt (by rw [hload]; rfl)⟩

theorem exec_halfLoad_of_error (h : s.reach (s.ea base offset) 2 .load = .error e) :
    ∀ i ∈ [Instr.lh rt base offset, .lhu rt base offset], exec i s = s.stop e := by
  have hload := loadHalf_error h
  rw [List.forall_mem_cons, List.forall_mem_singleton]
  exact ⟨finishLoad_of_error s rt (by rw [hload]; rfl), finishLoad_of_error s rt (by rw [hload]; rfl)⟩

theorem exec_wordLoad_of_error (h : s.reach (s.ea base offset) 4 .load = .error e) :
    exec (.lw rt base offset) s = s.stop e ∧
      (s.gate 1 = none → exec (.lwc1 rt base offset) s = s.stop e) ∧
      (s.gate 2 = none → exec (.lwc2 rt base offset) s = s.stop e) ∧
      (s.gate 3 = none → exec (.lwc3 rt base offset) s = s.stop e) :=
  ⟨finishLoad_of_error s rt (loadWord_error h),
    fun hg => (onCop_of_gate hg _).trans (loadThen_of_error s (loadWord_error h) _),
    fun hg => (onCop_of_gate hg _).trans (loadThen_of_error s (loadWord_error h) _),
    fun hg => (onCop_of_gate hg _).trans (loadThen_of_error s (loadWord_error h) _)⟩

theorem exec_lwl_of_error (h : s.reachPart true (s.ea base offset) .load = .error e) :
    exec (.lwl rt base offset) s = s.stop e := finishLoad_of_error s rt (loadPart_error h)

theorem exec_lwr_of_error (h : s.reachPart false (s.ea base offset) .load = .error e) :
    exec (.lwr rt base offset) s = s.stop e := finishLoad_of_error s rt (loadPart_error h)

theorem exec_sb_of_error (h : s.reach (s.ea base offset) 1 .store = .error e) :
    exec (.sb rt base offset) s = s.stop e := finishStore_of_error s (store_error h)

theorem exec_sh_of_error (h : s.reach (s.ea base offset) 2 .store = .error e) :
    exec (.sh rt base offset) s = s.stop e :=
  finishStore_of_error s (store_error ((halfBytes_length _ _).symm ▸ h))

theorem storeWord_of_error (h : s.reach (s.ea base offset) 4 .store = .error e) (v : Word) :
    s.finishStore (s.store (s.ea base offset) (wordBytes s.cfg.bigEndian v)) = s.stop e :=
  finishStore_of_error s (store_error ((wordBytes_length _ _).symm ▸ h))

theorem exec_wordStore_of_error (h : s.reach (s.ea base offset) 4 .store = .error e) :
    exec (.sw rt base offset) s = s.stop e ∧
      (s.gate 1 = none → exec (.swc1 rt base offset) s = s.stop e) ∧
      (s.gate 2 = none → exec (.swc2 rt base offset) s = s.stop e) ∧
      (s.gate 3 = none → exec (.swc3 rt base offset) s = s.stop e) :=
  ⟨storeWord_of_error h _, fun hg => (onCop_of_gate hg _).trans (storeWord_of_error h _),
    fun hg => (onCop_of_gate hg _).trans (storeWord_of_error h _),
    fun hg => (onCop_of_gate hg _).trans (storeWord_of_error h _)⟩

theorem exec_swl_of_error (h : s.reachPart true (s.ea base offset) .store = .error e) :
    exec (.swl rt base offset) s = s.stop e := finishStore_of_error s (storePart_error h)

theorem exec_swr_of_error (h : s.reachPart false (s.ea base offset) .store = .error e) :
    exec (.swr rt base offset) s = s.stop e := finishStore_of_error s (storePart_error h)

end

/-! ## The fetch -/

theorem fetch_of_error {s : State} {e : Stop} (h : s.reach s.pc 4 .fetch = .error e) : s.fetch = .error e := by
  simp [State.fetch, h]

/-- Some byte of the word fetched has been stored since launch, and the fetch does not see stores (rule R67). -/
theorem fetch_of_stale {s : State} {a : Nat} (h : s.reach s.pc 4 .fetch = .ok a)
    (hsees : s.cfg.fetchSeesStores = false) (hd : ∃ d ∈ s.dirty, a ≤ d ∧ d < a + 4) :
    s.fetch = .error (.fault .staleFetch) := by
  simp [State.fetch, h, hsees, hd]

theorem fetch_of_fresh {s : State} {a : Nat} (h : s.reach s.pc 4 .fetch = .ok a)
    (hfresh : ¬(s.cfg.fetchSeesStores = false ∧ ∃ d ∈ s.dirty, a ≤ d ∧ d < a + 4)) :
    s.fetch = .ok (s.wordAt a) := by
  have hcheck : ¬(s.cfg.fetchSeesStores = false ∧ s.dirty.any (fun d => a ≤ d && d < a + 4) = true) := by
    simpa using hfresh
  simp only [State.fetch, h, if_neg hcheck]

/-- What stops the fetch is what the step reports. -/
theorem step_of_fetch_error {s : State} {e : Stop} (hrun : s.outcome = .running) (hint : s.interruptTaken = false)
    (h : s.fetch = .error e) : step s = mapNext State.sampleInputs (s.stop e) := by
  simp [step_running hrun, State.cycle, hint, h]

/-- Settles O25: each check in its order, and each failure as what the instruction or the step reports. -/
theorem accessChecks : Obligations.AccessChecks := by
  refine ⟨fun va k refill => ?_, fun s va pa n k e _ => ⟨fun hal => reach_of_misaligned hal k,
      fun hm hu hva => reach_of_user hm hu hva n k, fun hal => reach_of_physical_error hal, fun hal hpa => ?_⟩,
    fun s left va pa k e => ⟨fun h => reachPart_of_physical_error h left, fun hpa => ⟨reachPart_of_admitted hpa,
      fun i hi hside hadm => reachPart_of_refused hpa hi hside hadm⟩⟩,
    fun s rt base offset e => ⟨fun _ => rfl, fun _ => rfl, exec_byteLoad_of_error, exec_halfLoad_of_error,
      exec_wordLoad_of_error, exec_lwl_of_error, exec_lwr_of_error, exec_sb_of_error, exec_sh_of_error,
      exec_wordStore_of_error, exec_swl_of_error, exec_swr_of_error⟩,
    fun s a ha => ?_, fun s hrun hint => ⟨fun e => fetch_of_error, fun e => step_of_fetch_error hrun hint,
      fun hal => ?_, fun pa hal hpa hadm => ?_, fun a ha hsees hd => ?_⟩⟩
  · cases k <;> exact ⟨rfl, rfl, rfl⟩
  · split
    · next hadm => exact reach_of_admitted hal hpa hadm
    · next hadm =>
      push Not at hadm
      obtain ⟨i, hi, hbad⟩ := hadm
      exact reach_of_refused hal hpa hi (by simpa using hbad)
  · split
    · next hstale => exact fetch_of_stale ha hstale.1 hstale.2
    · next hfresh => exact fetch_of_fresh ha hfresh
  · exact step_of_fetch_error hrun hint (fetch_of_error (reach_of_misaligned hal _))
  · obtain ⟨i, hi, hbad⟩ := hadm
    exact step_of_fetch_error hrun hint (fetch_of_error (reach_of_refused hal hpa hi hbad))
  · rw [step_of_fetch_error hrun hint (fetch_of_stale ha hsees hd)]
    rfl

end Sys2Proof.Machine
end

section
/-! Loads and stores that pass their checks (rules R51 to R54, R67, R230 to R232, R240 to R255). -/

namespace Sys2Proof.Machine

/-! ## Loads -/

theorem loadByte_of_reach {s : State} {va : Word} {a : Nat} (h : s.reach va 1 .load = .ok a) :
    s.loadByte va = .ok (s.byteAt a) := by rw [State.loadByte, h]

theorem loadHalf_of_reach {s : State} {va : Word} {a : Nat} (h : s.reach va 2 .load = .ok a) :
    s.loadHalf va = .ok (s.halfAt a) := by rw [State.loadHalf, h]

theorem loadWord_of_reach {s : State} {va : Word} {a : Nat} (h : s.reach va 4 .load = .ok a) :
    s.loadWord va = .ok (s.wordAt a) := by rw [State.loadWord, h]

theorem loadPart_of_reach {s : State} {left : Bool} {va : Word} {a : Nat} (h : s.reachPart left va .load = .ok a)
    (old : Word) : s.loadPart left va old =
      .ok (laneMerge left s.cfg.bigEndian (va.toNat % 4) old fun o => s.byteAt (a + o)) := by rw [State.loadPart, h]

/-- A load into a general register whose access succeeds completes with the register written. -/
theorem exec_loads {s : State} {i : Instr} {rt : Reg} {r : Except Stop Word} {v : Word}
    (hi : exec i s = s.finishLoad rt r) (hr : r = .ok v) :
    ∃ t, exec i s = .next t ∧ After s t { pending := .gpr rt } ∧ Frame s t [.gpr rt] ∧ t.holds rt v := by
  subst hr
  refine ⟨_, hi, after_complete _ ?_ ?_ ?_ ?_ ?_ ?_ ?_, frame_complete (frame_setX s rt v) _, ?_⟩ <;>
    simp [State.holds, x_setX]

/-- Settles O29: each load writes what it finds at the physical address. -/
theorem loads : Obligations.Loads := by
  intro s rt base offset a
  refine ⟨fun h => ?_, fun h => ?_, fun h => ?_⟩
  · have hbyte := loadByte_of_reach h
    exact ⟨exec_loads rfl (congrArg (Except.map _) hbyte), exec_loads rfl (congrArg (Except.map _) hbyte)⟩
  · have hhalf := loadHalf_of_reach h
    rw [← apply_ite (BitVec.signExtend 32), ← apply_ite (BitVec.setWidth 32)]
    exact ⟨exec_loads rfl (congrArg (Except.map _) hhalf), exec_loads rfl (congrArg (Except.map _) hhalf)⟩
  · exact exec_loads rfl (loadWord_of_reach h)

/-! ## The cells a store writes -/

/-- An instruction that completes by writing cells to memory takes `s` to `t`. -/
structure WritesCells (s t : State) (cells : List Host.Cell) : Prop where
  after : After s t {}
  frame : ∀ l : List Part, (∀ c ∈ cells, .byte c.1 ∈ l ∧ .dirty c.1 ∈ l) → Frame s t l
  mem : t.mem = Memory.writeCells s.mem cells
  dirty : ∀ a, a ∈ t.dirty ↔ a ∈ s.dirty ∨ s.cfg.fetchSeesStores = false ∧ ∃ c ∈ cells, c.1 = a

theorem mem_dirty_writeCells (s : State) (cells : List Host.Cell) (a : Nat) : a ∈ (s.writeCells cells).dirty ↔
    a ∈ s.dirty ∨ s.cfg.fetchSeesStores = false ∧ ∃ c ∈ cells, c.1 = a := by
  unfold State.writeCells
  cases s.cfg.fetchSeesStores <;> simp [mem_addrInsertCells]

theorem frame_writeCells (s : State) {cells : List Host.Cell} {l : List Part}
    (h : ∀ c ∈ cells, .byte c.1 ∈ l ∧ .dirty c.1 ∈ l) : Frame s (s.writeCells cells) l := by
  intro p hp
  cases p with
  | byte a =>
    exact read_writeCells_of_notMem cells s.mem a fun c hc hca => hp (hca ▸ (h c hc).1)
  | dirty a =>
    have hout : ¬∃ c ∈ cells, c.1 = a := fun ⟨c, hc, hca⟩ => hp (hca ▸ (h c hc).2)
    simp [Part.same, mem_dirty_writeCells, hout]
  | _ => simp [Part.same]

theorem finishStore_writes (s : State) (cells : List Host.Cell) :
    ∃ t, s.finishStore (.ok (s.writeCells cells)) = .next t ∧ WritesCells s t cells :=
  ⟨_, rfl, after_complete _ rfl rfl rfl rfl rfl rfl rfl, fun _ h => frame_complete (frame_writeCells s h) _,
    by simp, by simp [mem_dirty_writeCells]⟩

theorem store_of_reach {s : State} {va : Word} {bytes : List Byte} {a : Nat}
    (h : s.reach va bytes.length .store = .ok a) : s.store va bytes = .ok (s.writeCells (cellsAt a bytes)) := by
  rw [State.store, h]

theorem storePart_of_reach {s : State} {left : Bool} {va : Word} {a : Nat} (h : s.reachPart left va .store = .ok a)
    (v : Word) : s.storePart left va v =
      .ok (s.writeCells (laneCells left s.cfg.bigEndian (va.toNat % 4) a v)) := by
  rw [State.storePart, h]

theorem exec_stores {s : State} {i : Instr} {va : Word} {bytes : List Byte} {a : Nat}
    (hi : exec i s = s.finishStore (s.store va bytes)) (h : s.reach va bytes.length .store = .ok a) :
    ∃ t, exec i s = .next t ∧ WritesCells s t (cellsAt a bytes) := by
  rw [hi, store_of_reach h]
  exact finishStore_writes s _

theorem exec_storesPart {s : State} {i : Instr} {left : Bool} {va v : Word} {a : Nat}
    (hi : exec i s = s.finishStore (s.storePart left va v)) (h : s.reachPart left va .store = .ok a) :
    ∃ t, exec i s = .next t ∧ WritesCells s t (laneCells left s.cfg.bigEndian (va.toNat % 4) a v) := by
  rw [hi, storePart_of_reach h]
  exact finishStore_writes s _

section
variable {s t : State} {cells : List Host.Cell}

theorem WritesCells.cfg_eq (h : WritesCells s t cells) : t.cfg = s.cfg :=
  h.frame (cells.flatMap fun c => [.byte c.1, .dirty c.1])
    (fun c hc => ⟨List.mem_flatMap.2 ⟨c, hc, by simp⟩, List.mem_flatMap.2 ⟨c, hc, by simp⟩⟩) .cfg (by simp)

theorem WritesCells.mem_wf (h : WritesCells s t cells) (hm : Memory.wf s.mem)
    (hc : ∀ c ∈ cells, c.1 < 4294967296) : Memory.wf t.mem := h.mem ▸ wf_writeCells cells s.mem hm hc

/-- The bytes a store writes enter `dirty` unless fetches see stores (rule R67). -/
theorem WritesCells.mem_dirty (h : WritesCells s t cells) {a : Nat} (ha : ∃ c ∈ cells, c.1 = a) :
    a ∈ t.dirty ↔ s.cfg.fetchSeesStores = false ∨ a ∈ s.dirty := by
  simp only [h.dirty, ha, and_true]
  exact or_comm

end

theorem mem_storedAt {a n b : Nat} : (Part.byte b ∈ storedAt a n ↔ a ≤ b ∧ b < a + n) ∧
    (Part.dirty b ∈ storedAt a n ↔ a ≤ b ∧ b < a + n) := by
  simp only [storedAt, List.mem_flatMap, List.mem_range, List.mem_cons, Part.byte.injEq, Part.dirty.injEq,
    List.not_mem_nil, or_false, false_or, reduceCtorEq]
  have hoff : (∃ i < n, b = a + i) ↔ a ≤ b ∧ b < a + n :=
    ⟨fun ⟨i, hi, hb⟩ => by omega, fun hb => ⟨b - a, by omega, by omega⟩⟩
  exact ⟨hoff, hoff⟩

/-- A store of cells within a run of bytes changes no other byte. -/
theorem WritesCells.frame_storedAt {s t : State} {cells : List Host.Cell} (h : WritesCells s t cells) {a n : Nat}
    (hc : ∀ c ∈ cells, a ≤ c.1 ∧ c.1 < a + n) : Frame s t (storedAt a n) :=
  h.frame _ fun c hcell => ⟨mem_storedAt.1.2 (hc c hcell), mem_storedAt.2.2 (hc c hcell)⟩

theorem exists_cellsAt {bytes : List Byte} {a i : Nat} (hi : i < bytes.length) :
    ∃ c ∈ cellsAt a bytes, c.1 = a + i := by
  induction bytes generalizing a i with
  | nil => simp at hi
  | cons b bytes ih =>
    cases i with
    | zero => exact ⟨(a, b), by simp [cellsAt], rfl⟩
    | succ i =>
      obtain ⟨c, hc, hca⟩ := ih (a := a + 1) (i := i) (by simpa using hi)
      exact ⟨c, List.mem_cons_of_mem _ hc, by omega⟩

/-- The store of a run of bytes: they and no others change, and they enter `dirty`. -/
theorem WritesCells.stored {s t : State} {a : Nat} {bytes : List Byte} (h : WritesCells s t (cellsAt a bytes))
    (hm : Memory.wf s.mem) (htop : a + bytes.length ≤ 4294967296) : Frame s t (storedAt a bytes.length) ∧
      (∀ i < bytes.length, bytes[i]? = some (t.byteAt (a + i))) ∧ Memory.wf t.mem ∧
      ∀ i < bytes.length, a + i ∈ t.dirty ↔ s.cfg.fetchSeesStores = false ∨ a + i ∈ s.dirty := by
  refine ⟨h.frame_storedAt fun c hc => mem_cellsAt hc, fun i hi => ?_,
    h.mem_wf hm fun c hc => by have := mem_cellsAt hc; omega, fun i hi => h.mem_dirty (exists_cellsAt hi)⟩
  rw [State.byteAt, h.mem, read_writeCells_cellsAt bytes s.mem a (a + i) hm htop, dif_pos (by omega)]
  simp [hi]

/-- A store of `n` bytes whose access passes its checks. -/
theorem exec_stored {s : State} {i : Instr} {va : Word} {bytes : List Byte} {a n : Nat}
    (hi : exec i s = s.finishStore (s.store va bytes)) (hm : Memory.wf s.mem) (hlen : bytes.length = n)
    (hn : n ∣ 4096) (h : s.reach va n .store = .ok a) :
    ∃ t, exec i s = .next t ∧ After s t {} ∧ Frame s t (storedAt a n) ∧
      (∀ i < n, bytes[i]? = some (t.byteAt (a + i))) ∧ Memory.wf t.mem ∧
      ∀ i < n, a + i ∈ t.dirty ↔ s.cfg.fetchSeesStores = false ∨ a + i ∈ s.dirty := by
  subst hlen
  obtain ⟨_, _, htop, _⟩ := reach_ok hn h
  obtain ⟨t, ht, hw⟩ := exec_stores hi h
  exact ⟨t, ht, hw.after, hw.stored hm htop⟩

/-! ## sb, sh, sw -/

theorem halfBytes_getElem? (be : Bool) (v : Word) {i : Nat} (hi : i < 2) :
    (halfBytes be (v.extractLsb' 0 16))[i]? = some (v.extractLsb' (8 * (if be then 1 - i else i)) 8) := by
  have hlow (n : Nat) (hn : n + 8 ≤ 16) : (v.extractLsb' 0 16).extractLsb' n 8 = v.extractLsb' n 8 := by
    rw [BitVec.extractLsb'_extractLsb'_of_le hn]
  cases be <;> interval_cases i <;> simp [halfBytes, hlow]

theorem wordBytes_getElem? (be : Bool) (v : Word) {i : Nat} (hi : i < 4) :
    (wordBytes be v)[i]? = some (v.extractLsb' (8 * (if be then 3 - i else i)) 8) := by
  cases be <;> interval_cases i <;> rfl

/-- The store of a word, whatever register it comes from. -/
theorem exec_storesWord {s : State} {i : Instr} {va v : Word} {a : Nat}
    (hi : exec i s = s.finishStore (s.store va (wordBytes s.cfg.bigEndian v))) (hm : Memory.wf s.mem)
    (h : s.reach va 4 .store = .ok a) :
    ∃ t, exec i s = .next t ∧ After s t {} ∧ Frame s t (storedAt a 4) ∧
      (∀ i < 4, t.byteAt (a + i) = v.extractLsb' (8 * (if s.cfg.bigEndian then 3 - i else i)) 8) ∧ Memory.wf t.mem ∧
      ∀ i < 4, a + i ∈ t.dirty ↔ s.cfg.fetchSeesStores = false ∨ a + i ∈ s.dirty := by
  obtain ⟨t, ht, hafter, hframe, hbytes, hwf, hdirty⟩ :=
    exec_stored hi hm (wordBytes_length _ _) (by decide) h
  refine ⟨t, ht, hafter, hframe, fun i hi => ?_, hwf, hdirty⟩
  exact (Option.some.inj ((wordBytes_getElem? _ v hi).symm.trans (hbytes i hi))).symm

/-- Settles O30: each store writes the register's bytes from the physical address upwards. -/
theorem stores : Obligations.Stores := by
  intro s rt base offset a hm
  refine ⟨fun h => ?_, fun h => ?_, fun h => exec_storesWord rfl hm h⟩
  · obtain ⟨t, ht, hafter, hframe, hbytes, hwf, hdirty⟩ := exec_stored (i := .sb rt base offset) rfl hm rfl (by simp) h
    exact ⟨t, ht, hafter, hframe, (Option.some.inj (hbytes 0 one_pos)).symm, hwf, hdirty 0 one_pos⟩
  · obtain ⟨t, ht, hafter, hframe, hbytes, hwf, hdirty⟩ :=
      exec_stored (i := .sh rt base offset) rfl hm (halfBytes_length _ _) (by decide) h
    refine ⟨t, ht, hafter, hframe, fun i hi => ?_, hwf, hdirty⟩
    exact (Option.some.inj ((halfBytes_getElem? _ (s.x rt) hi).symm.trans (hbytes i hi))).symm

/-! ## Misaligned accesses (rule R54) -/

theorem raise_keeps {s t : State} {e : Exc} (h : s.raise e = .next t) : t.mem = s.mem ∧ t.gpr = s.gpr ∧
    t.fpr = s.fpr ∧ t.cpr2 = s.cpr2 ∧ t.cpr3 = s.cpr3 := by
  cases hm : s.cfg.trapModel with
  | fault => rw [raise_fault hm] at h; cases h; exact ⟨rfl, rfl, rfl, rfl, rfl⟩
  | mips1 => rw [raise_mips1 hm] at h; cases h; exact ⟨rfl, rfl, rfl, rfl, rfl⟩

theorem reach_byte_of_word {s : State} {va pa : Word} {k : Access} (h : s.physical va k = .ok pa)
    (hadm : ∀ j < 4, admits s.cfg.memDomain (pa.toNat / 4 * 4 + j) = true) : s.reach va 1 k = .ok pa.toNat := by
  refine reach_of_admitted (Nat.mod_one _) h fun i hi => ?_
  have hplace := hadm (pa.toNat % 4) (by omega)
  rwa [show pa.toNat + i = pa.toNat / 4 * 4 + pa.toNat % 4 by omega]

theorem reachPart_of_word {s : State} {va pa : Word} {k : Access} (h : s.physical va k = .ok pa)
    (hadm : ∀ j < 4, admits s.cfg.memDomain (pa.toNat / 4 * 4 + j) = true) (left : Bool) :
    s.reachPart left va k = .ok (pa.toNat / 4 * 4) := reachPart_of_admitted h fun i hi _ => hadm i hi

/-- Settles O34: alignment is the first check; a byte access and a left or right access have none. -/
theorem alignmentErrors : Obligations.AlignmentErrors := by
  refine fun s rt base offset => ⟨fun hal => ?_, fun hal => ?_, fun e t => raise_keeps, fun pa hpa hadm => ?_,
    fun pa hpa hadm => ?_⟩
  · have hload := exec_halfLoad_of_error (rt := rt) (reach_of_misaligned hal .load)
    exact ⟨hload _ (by simp), hload _ (by simp), exec_sh_of_error (reach_of_misaligned hal .store)⟩
  · obtain ⟨hlw, hlwc1, hlwc2, hlwc3⟩ := exec_wordLoad_of_error (rt := rt) (reach_of_misaligned hal .load)
    obtain ⟨hsw, hswc1, hswc2, hswc3⟩ := exec_wordStore_of_error (rt := rt) (reach_of_misaligned hal .store)
    exact ⟨hlw, hsw, fun hg => ⟨hlwc1 hg, hswc1 hg⟩, fun hg => ⟨hlwc2 hg, hswc2 hg⟩, fun hg => ⟨hlwc3 hg, hswc3 hg⟩⟩
  · have hbyte := loadByte_of_reach (reach_byte_of_word hpa hadm)
    have hpart := reachPart_of_word hpa hadm
    have completes {i : Instr} {r : Except Stop Word} {v : Word} (hi : exec i s = s.finishLoad rt r) (hr : r = .ok v) :
        ∃ t, exec i s = .next t ∧ After s t { pending := .gpr rt } :=
      (exec_loads hi hr).imp fun t ht => ⟨ht.1, ht.2.1⟩
    rw [List.forall_mem_cons, List.forall_mem_cons, List.forall_mem_cons, List.forall_mem_singleton]
    exact ⟨completes rfl (congrArg (Except.map _) hbyte), completes rfl (congrArg (Except.map _) hbyte),
      completes rfl (loadPart_of_reach (hpart true) _), completes rfl (loadPart_of_reach (hpart false) _)⟩
  · have hpart := reachPart_of_word hpa hadm
    rw [List.forall_mem_cons, List.forall_mem_cons, List.forall_mem_singleton]
    exact ⟨(exec_stores rfl (reach_byte_of_word hpa hadm)).imp fun t ht => ⟨ht.1, ht.2.after⟩,
      (exec_storesPart rfl (hpart true)).imp fun t ht => ⟨ht.1, ht.2.after⟩,
      (exec_storesPart rfl (hpart false)).imp fun t ht => ⟨ht.1, ht.2.after⟩⟩

end Sys2Proof.Machine
end

section
/-! Stores seen byte by byte: words read after a store of a word or of part of one, narrow loads of a stored word
(rules R51, R52, R232, R253 to R255). -/

namespace Sys2Proof.Machine

/-! ## The bytes of a word -/

/-- The offset in memory of byte `k` of a word, and the byte at offset `k` (rule R51). -/
def bytePlace (be : Bool) (k : Nat) : Nat := if be then 3 - k else k

theorem bytePlace_lt {be : Bool} {k : Nat} (hk : k < 4) : bytePlace be k < 4 := by
  unfold bytePlace; split <;> omega

theorem bytePlace_bytePlace {be : Bool} {k : Nat} (hk : k < 4) : bytePlace be (bytePlace be k) = k := by
  unfold bytePlace; split <;> omega

/-- A word is its four bytes. -/
theorem word_ext {v w : Word} (h : ∀ k < 4, regByte v k = regByte w k) : v = w := by
  refine BitVec.eq_of_getLsbD_eq fun n hn => ?_
  have hbit := congrArg (·.getLsbD (n % 8)) (h (n / 8) (by omega))
  simpa [regByte, BitVec.getLsbD_extractLsb', Nat.mod_lt, Nat.div_add_mod] using hbit

theorem getLsbD_append_bytes (b0 b1 b2 b3 : Byte) {k n : Nat} (hk : k < 4) (hn : n < 8) :
    (b0 ++ b1 ++ b2 ++ b3).getLsbD (8 * k + n) =
      (if k = 0 then b3 else if k = 1 then b2 else if k = 2 then b1 else b0).getLsbD n := by
  simp only [BitVec.getLsbD_append]
  interval_cases k <;> simp <;> grind

theorem regByte_wordAt (s : State) (a : Nat) {k : Nat} (hk : k < 4) :
    regByte (s.wordAt a) k = s.byteAt (a + bytePlace s.cfg.bigEndian k) := by
  refine BitVec.eq_of_getLsbD_eq fun n hn => ?_
  unfold State.wordAt assembleWord bytePlace
  simp only [regByte, BitVec.getLsbD_extractLsb', hn, decide_true, Bool.true_and]
  cases s.cfg.bigEndian <;> interval_cases k <;> exact getLsbD_append_bytes _ _ _ _ (by decide) hn

/-- The word read where the four bytes of `v` stand is `v`. -/
theorem wordAt_eq_of_bytes {s : State} {a : Nat} {v : Word}
    (h : ∀ i < 4, s.byteAt (a + i) = regByte v (bytePlace s.cfg.bigEndian i)) : s.wordAt a = v :=
  word_ext fun k hk => by
    rw [regByte_wordAt s a hk, h _ (bytePlace_lt hk), bytePlace_bytePlace hk]

/-! ## swc0 to swc3 -/

theorem exec_storesCopWord {s : State} {i : Instr} {z : CopNum} {va v : Word} {a : Nat}
    (hi : exec i s = s.onCop z (s.finishStore (s.store va (wordBytes s.cfg.bigEndian v)))) (hgate : s.gate z = none)
    (hm : Memory.wf s.mem) (h : s.reach va 4 .store = .ok a) :
    ∃ t, exec i s = .next t ∧ After s t {} ∧ Frame s t (storedAt a 4) ∧ t.wordAt a = v ∧
      ∀ i < 4, a + i ∈ t.dirty ↔ s.cfg.fetchSeesStores = false ∨ a + i ∈ s.dirty := by
  obtain ⟨t, ht, hafter, hframe, hbytes, _, hdirty⟩ := exec_storesWord (hi.trans (onCop_of_gate hgate _)) hm h
  have hcfg : t.cfg = s.cfg := hframe .cfg (by simp [storedAt])
  exact ⟨t, ht, hafter, hframe, wordAt_eq_of_bytes (hcfg ▸ hbytes), hdirty⟩

/-- Settles O36: each store writes the word of its coprocessor's register. -/
theorem coprocessorStores : Obligations.CoprocessorStores :=
  ⟨fun _ _ _ _ => rfl, fun _ _ _ _ _ hm h => ⟨fun hgate => exec_storesCopWord rfl hgate hm h,
    fun hgate => exec_storesCopWord rfl hgate hm h, fun hgate => exec_storesCopWord rfl hgate hm h⟩⟩

/-! ## swl and swr -/

/-- A left transfer pairs byte `k` of the register with the byte of the word `bytePlace (!be) b` places lower. -/
theorem lane_left_iff : ∀ be : Bool, ∀ b < 4, ∀ k < 4, ∀ o < 4,
    lane true be b k = some o ↔ k = bytePlace be o + bytePlace (!be) b := by decide

/-- A right transfer pairs byte `k` of the register with the byte of the word as many places higher. -/
theorem lane_right_iff : ∀ be : Bool, ∀ b < 4, ∀ k < 4, ∀ o < 4,
    lane false be b k = some o ↔ k + (3 - bytePlace (!be) b) = bytePlace be o := by decide

theorem lane_injective {left be : Bool} {b k j o : Nat} (hk4 : k < 4) (hj4 : j < 4)
    (hk : lane left be b k = some o) (hj : lane left be b j = some o) : k = j := by
  cases left <;> cases be <;> simp only [lane, Option.ite_none_right_eq_some, Option.some.injEq] at hk hj <;> omega

theorem mem_laneCells_iff {left be : Bool} {b base : Nat} {v : Word} {c : Host.Cell} :
    c ∈ laneCells left be b base v ↔ ∃ k < 4, ∃ o, lane left be b k = some o ∧ c = (base + o, regByte v k) := by
  have hk (k : Nat) : k ∈ [3, 2, 1, 0] ↔ k < 4 := by simp; omega
  simp only [laneCells, List.mem_filterMap, Option.map_eq_some_iff, hk, eq_comm (a := c)]

/-- The last of the cells written at an address stands; where all of them hold one byte, that byte. -/
theorem read_writeCells_of_mem (cells : List Host.Cell) (m : Memory) {a : Nat} {v : Byte} (hm : Memory.wf m)
    (htop : ∀ c ∈ cells, c.1 < 4294967296) (hv : ∀ c ∈ cells, c.1 = a → c.2 = v) (ha : ∃ c ∈ cells, c.1 = a) :
    Memory.read (Memory.writeCells m cells) a = v := by
  induction cells generalizing m with
  | nil => simp at ha
  | cons d cells ih =>
    rw [List.forall_mem_cons] at htop hv
    have hwrite : Memory.writeCells m (d :: cells) = Memory.writeCells (Memory.write m d.1 d.2) cells := rfl
    rw [hwrite]
    by_cases hrest : ∃ c ∈ cells, c.1 = a
    · exact ih _ (wf_write m d.1 d.2 hm htop.1) htop.2 hv.2 hrest
    · have hd : d.1 = a := by simpa [hrest] using ha
      rw [read_writeCells_of_notMem cells _ a fun c hc hca => hrest ⟨c, hc, hca⟩, ← hd, read_write_same m d.1 d.2 hm]
      exact hv.1 hd

section
variable {s t : State} {left be : Bool} {a b : Nat} {v : Word}

/-- A byte the transfer pairs becomes its register byte. -/
theorem WritesCells.byteAt_lane (h : WritesCells s t (laneCells left be b a v)) (hm : Memory.wf s.mem)
    (htop : a + 4 ≤ 4294967296) (hb : b < 4) {k o : Nat} (hk : k < 4) (hlane : lane left be b k = some o) :
    t.byteAt (a + o) = regByte v k := by
  rw [State.byteAt, h.mem]
  refine read_writeCells_of_mem _ s.mem hm (fun c hc => ?_) (fun c hc hca => ?_)
    ⟨_, mem_laneCells_iff.2 ⟨k, hk, o, hlane, rfl⟩, rfl⟩
  · exact lt_of_lt_of_le (mem_laneCells hb hc) htop
  · obtain ⟨j, hj, p, hp, rfl⟩ := mem_laneCells_iff.1 hc
    obtain rfl : p = o := Nat.add_left_cancel hca
    rw [lane_injective hj hk hp hlane]

theorem WritesCells.byteAt_noLane (h : WritesCells s t (laneCells left be b a v)) {o : Nat}
    (hlane : ∀ k < 4, lane left be b k ≠ some o) : t.byteAt (a + o) = s.byteAt (a + o) := by
  rw [State.byteAt, h.mem]
  refine read_writeCells_of_notMem _ s.mem _ fun c hc hca => ?_
  obtain ⟨k, hk, p, hp, rfl⟩ := mem_laneCells_iff.1 hc
  exact hlane k hk (by rw [hp, Nat.add_left_cancel hca])

/-- The cells a left or right store writes are those of the touched bytes. -/
theorem exists_laneCells_iff (hb : b < 4) {o : Nat} :
    (∃ c ∈ laneCells left be b a v, c.1 = a + o) ↔ o < 4 ∧ if left = be then b ≤ o else o ≤ b := by
  rw [← mem_laneOffsets left be hb]
  have hk (k : Nat) : k ∈ [3, 2, 1, 0] ↔ k < 4 := by simp; omega
  simp only [laneOffsets, List.mem_filterMap, hk, mem_laneCells_iff]
  constructor
  · rintro ⟨c, ⟨k, hk, p, hp, rfl⟩, hpo⟩
    exact ⟨k, hk, by rw [hp, Nat.add_left_cancel hpo]⟩
  · rintro ⟨k, hk, ho⟩
    exact ⟨_, ⟨k, hk, o, ho, rfl⟩, rfl⟩

end

/-- The bytes of the word formula of `swl` and `lwr`: those of `v` shifted down by `k`, over those of `w`. -/
theorem regByte_highMerge (v w : Word) {j k : Nat} (hj : j < 4) (hk : k < 4) :
    regByte ((w &&& ~~~BitVec.ofNat 32 (2 ^ (32 - 8 * k) - 1)) ||| (v >>> (8 * k))) j =
      if j + k < 4 then regByte v (j + k) else regByte w j := by
  refine BitVec.eq_of_getLsbD_eq fun n hn => ?_
  have hplace : 8 * k + (8 * j + n) = 8 * (j + k) + n := by omega
  have hbit : 8 * j + n < 32 := by omega
  simp only [regByte, BitVec.getLsbD_extractLsb', BitVec.getLsbD_or, BitVec.getLsbD_and, BitVec.getLsbD_not,
    BitVec.getLsbD_ofNat, Nat.testBit_two_pow_sub_one, BitVec.getLsbD_ushiftRight, hn, hbit, hplace, decide_true,
    Bool.true_and]
  split
  · next hin => simp [show 8 * j + n < 32 - 8 * k by omega, hn]
  · next hout =>
    simp [show ¬8 * j + n < 32 - 8 * k by omega, hn, BitVec.getLsbD_of_ge v _ (show 32 ≤ 8 * (j + k) + n by omega)]

/-- The bytes of the word formula of `swr` and `lwl`: those of `v` shifted up by `m`, over those of `w`. -/
theorem regByte_lowMerge (v w : Word) {j m : Nat} (hj : j < 4) :
    regByte ((v <<< (8 * m)) ||| (w &&& BitVec.ofNat 32 (2 ^ (8 * m) - 1))) j =
      if j < m then regByte w j else regByte v (j - m) := by
  refine BitVec.eq_of_getLsbD_eq fun n hn => ?_
  have hbit : 8 * j + n < 32 := by omega
  simp only [regByte, BitVec.getLsbD_extractLsb', BitVec.getLsbD_or, BitVec.getLsbD_and,
    BitVec.getLsbD_ofNat, Nat.testBit_two_pow_sub_one, BitVec.getLsbD_shiftLeft, hn, hbit, decide_true,
    Bool.true_and]
  split
  · next hin => simp [show 8 * j + n < 8 * m by omega, hn]
  · next hout =>
    simp [show ¬8 * j + n < 8 * m by omega, hn, show 8 * j + n - 8 * m = 8 * (j - m) + n by omega]

/-- What a left or right store has left, but for the word formulas. -/
theorem exec_partStored {s : State} {i : Instr} {left : Bool} {va v : Word} {a b : Nat}
    (hi : exec i s = s.finishStore (s.storePart left va v)) (hm : Memory.wf s.mem) (hb : b = va.toNat % 4)
    (h : s.reachPart left va .store = .ok a) :
    ∃ t, exec i s = .next t ∧ WritesCells s t (laneCells left s.cfg.bigEndian b a v) ∧
      Frame s t (if left = s.cfg.bigEndian then storedAt (a + b) (4 - b) else storedAt a (b + 1)) ∧
      Memory.wf t.mem ∧ ∀ i < 4, (if left = s.cfg.bigEndian then b ≤ i else i ≤ b) →
        (a + i ∈ t.dirty ↔ s.cfg.fetchSeesStores = false ∨ a + i ∈ s.dirty) := by
  obtain ⟨_, htop, _⟩ := reachPart_ok h
  obtain ⟨t, ht, hw⟩ := exec_storesPart hi h
  rw [← hb] at hw
  have hb4 : b < 4 := by omega
  have hcell (c : Host.Cell) (hc : c ∈ laneCells left s.cfg.bigEndian b a v) :
      ∃ o < 4, (if left = s.cfg.bigEndian then b ≤ o else o ≤ b) ∧ c.1 = a + o := by
    obtain ⟨k, _, o, _, rfl⟩ := mem_laneCells_iff.1 hc
    obtain ⟨ho, hside⟩ := (exists_laneCells_iff hb4).1 ⟨_, hc, rfl⟩
    exact ⟨o, ho, hside, rfl⟩
  refine ⟨t, ht, hw, ?_, hw.mem_wf hm fun c hc => ?_,
    fun i hi hside => hw.mem_dirty ((exists_laneCells_iff hb4).2 ⟨hi, hside⟩)⟩
  · split
    · next hside =>
      refine hw.frame_storedAt fun c hc => ?_
      obtain ⟨o, ho, hbo, hca⟩ := hcell c hc
      rw [if_pos hside] at hbo
      omega
    · next hside =>
      refine hw.frame_storedAt fun c hc => ?_
      obtain ⟨o, ho, hbo, hca⟩ := hcell c hc
      rw [if_neg hside] at hbo
      omega
  · exact lt_of_lt_of_le (mem_laneCells hb4 hc) htop

/-- `swl` leaves byte `j` of the word the register's byte `k` places higher, where there is one. -/
theorem regByte_wordAt_left {s t : State} {a b k j : Nat} {v : Word}
    (h : WritesCells s t (laneCells true s.cfg.bigEndian b a v)) (hm : Memory.wf s.mem)
    (htop : a + 4 ≤ 4294967296) (hb : b < 4) (hk : k = bytePlace (!s.cfg.bigEndian) b) (hj : j < 4) :
    regByte (t.wordAt a) j = if j + k < 4 then regByte v (j + k) else regByte (s.wordAt a) j := by
  have ho : bytePlace s.cfg.bigEndian j < 4 := bytePlace_lt hj
  have hlane (i : Nat) (hi : i < 4) :
      lane true s.cfg.bigEndian b i = some (bytePlace s.cfg.bigEndian j) ↔ i = j + k := by
    rw [lane_left_iff _ b hb i hi _ ho, bytePlace_bytePlace hj, hk]
  rw [regByte_wordAt t a hj, regByte_wordAt s a hj, h.cfg_eq]
  split
  · next hin => exact h.byteAt_lane hm htop hb hin ((hlane _ hin).2 rfl)
  · next hout => exact h.byteAt_noLane fun i hi hl => hout ((hlane i hi).1 hl ▸ hi)

/-- `swr` leaves byte `j` of the word the register's byte `3 - k` places lower, where there is one. -/
theorem regByte_wordAt_right {s t : State} {a b k j : Nat} {v : Word}
    (h : WritesCells s t (laneCells false s.cfg.bigEndian b a v)) (hm : Memory.wf s.mem)
    (htop : a + 4 ≤ 4294967296) (hb : b < 4) (hk : k = bytePlace (!s.cfg.bigEndian) b) (hj : j < 4) :
    regByte (t.wordAt a) j = if j < 3 - k then regByte (s.wordAt a) j else regByte v (j - (3 - k)) := by
  have ho : bytePlace s.cfg.bigEndian j < 4 := bytePlace_lt hj
  have hlane (i : Nat) (hi : i < 4) :
      lane false s.cfg.bigEndian b i = some (bytePlace s.cfg.bigEndian j) ↔ i + (3 - k) = j := by
    rw [lane_right_iff _ b hb i hi _ ho, bytePlace_bytePlace hj, hk]
  rw [regByte_wordAt t a hj, regByte_wordAt s a hj, h.cfg_eq]
  split
  · next hout => exact h.byteAt_noLane fun i hi hl => by have := (hlane i hi).1 hl; omega
  · next hin =>
    have hi : j - (3 - k) < 4 := by omega
    exact h.byteAt_lane hm htop hb hi ((hlane _ hi).2 (by omega))

/-- Settles O32: each byte of the word is the one the word formula gives. -/
theorem partialStores : Obligations.PartialStores := by
  intro s rt base offset a b k hm hb hk
  have hb4 : b < 4 := by omega
  have hplace : k = bytePlace (!s.cfg.bigEndian) b := by
    rw [hk]; unfold bytePlace; cases s.cfg.bigEndian <;> rfl
  have hk4 : k < 4 := hplace ▸ bytePlace_lt hb4
  refine ⟨fun h => ?_, fun h => ?_⟩
  · obtain ⟨_, htop, _⟩ := reachPart_ok h
    obtain ⟨t, ht, hw, hframe, hwf, hdirty⟩ := exec_partStored (i := .swl rt base offset) rfl hm hb h
    refine ⟨t, ht, hw.after, ?_, word_ext fun j hj => ?_, hwf, ?_⟩
    · simpa only [eq_comm (a := true)] using hframe
    · rw [regByte_highMerge _ _ hj hk4, regByte_wordAt_left hw hm htop hb4 hplace hj]
    · simpa only [eq_comm (a := true)] using hdirty
  · obtain ⟨_, htop, _⟩ := reachPart_ok h
    obtain ⟨t, ht, hw, hframe, hwf, hdirty⟩ := exec_partStored (i := .swr rt base offset) rfl hm hb h
    refine ⟨t, ht, hw.after, ?_, word_ext fun j hj => ?_, hwf, ?_⟩
    · cases hbe : s.cfg.bigEndian <;> simpa [hbe] using hframe
    · rw [regByte_lowMerge _ _ hj, regByte_wordAt_right hw hm htop hb4 hplace hj]
    · cases hbe : s.cfg.bigEndian <;> simpa [hbe] using hdirty

end Sys2Proof.Machine
end

section
/-! Narrow loads of a stored word, in both byte orders (rule R52): the page of an address decides its translation, so
the bytes of the word are where the store put them. -/

namespace Sys2Proof.Machine

/-! ## Addresses of one page -/

/-- A translation that succeeds comes from the one matching entry, valid, and writable for a store (rule R63). -/
theorem translate_eq_ok {s : State} {va pa : Word} {k : Access} (h : s.translate va k = .ok pa) :
    ∃ e i, tlbMatches s.tlb (va.extractLsb' 12 20) s.asid = [(e, i)] ∧ e.valid = true ∧
      pa = e.pfn ++ va.extractLsb' 0 12 := by
  unfold State.translate at h
  split at h
  · cases h
  · next e i hmatch =>
    split at h
    · cases h
    · next hvalid =>
      split at h
      · cases h
      · exact ⟨e, i, hmatch, by simpa using hvalid, (Except.ok.inj h).symm⟩
  · cases h

theorem translate_load_of_match {s : State} {va : Word} {e : TlbEntry} {i : Nat}
    (h : tlbMatches s.tlb (va.extractLsb' 12 20) s.asid = [(e, i)]) (hvalid : e.valid = true) :
    s.translate va .load = .ok (e.pfn ++ va.extractLsb' 0 12) := by
  simp [State.translate, h, hvalid]

theorem toNat_append_place (pfn : BitVec 20) (va : Word) :
    (pfn ++ va.extractLsb' 0 12).toNat = pfn.toNat * 4096 + va.toNat % 4096 := by
  rw [BitVec.toNat_append, BitVec.extractLsb'_toNat, Nat.shiftRight_zero,
    ← Nat.shiftLeft_add_eq_or_of_lt (Nat.mod_lt _ (by decide)), Nat.shiftLeft_eq]

/-- A segment that starts at a page keeps the places in a page. -/
theorem toNat_sub_samePage {va va' start : Word} (hstart : start.toNat % 4096 = 0) (h : start.toNat ≤ va.toNat)
    (h' : start.toNat ≤ va'.toNat) (hpage : va'.toNat / 4096 = va.toNat / 4096) :
    (va' - start).toNat = (va - start).toNat / 4096 * 4096 + va'.toNat % 4096 := by
  rw [BitVec.toNat_sub_of_le h, BitVec.toNat_sub_of_le h']
  omega

theorem translate_samePage {s : State} {va va' pa : Word} {k : Access} (h : s.translate va k = .ok pa)
    (hpage : va'.toNat / 4096 = va.toNat / 4096) :
    ∃ pa' : Word, s.translate va' .load = .ok pa' ∧ pa'.toNat = pa.toNat / 4096 * 4096 + va'.toNat % 4096 := by
  obtain ⟨e, i, hmatch, hvalid, rfl⟩ := translate_eq_ok h
  have hvpn : va'.extractLsb' 12 20 = va.extractLsb' 12 20 := by
    rw [← BitVec.toNat_inj, BitVec.extractLsb'_toNat, BitVec.extractLsb'_toNat]
    simp only [Nat.shiftRight_eq_div_pow, Nat.reducePow, hpage]
  refine ⟨_, translate_load_of_match (hvpn ▸ hmatch) hvalid, ?_⟩
  rw [toNat_append_place, toNat_append_place]
  omega

/-- Where one access to a page is translated, a load from any address of the page is, to the same frame. -/
theorem physical_samePage {s : State} {va va' pa : Word} {k : Access} (h : s.physical va k = .ok pa)
    (hpage : va'.toNat / 4096 = va.toNat / 4096) :
    ∃ pa' : Word, s.physical va' .load = .ok pa' ∧ pa'.toNat = pa.toNat / 4096 * 4096 + va'.toNat % 4096 := by
  cases hm : s.cfg.trapModel with
  | fault =>
    rw [physical_fault hm] at h
    cases h
    exact ⟨va', physical_fault hm va' _, by omega⟩
  | mips1 =>
    have hseg : va'.toNat / 0x20000000 = va.toNat / 0x20000000 := by omega
    rw [physical_mips1 hm] at h
    rw [physical_mips1 hm, hseg]
    split at h
    · cases h
    · next hmode =>
      rw [if_neg fun hu => hmode ⟨hu.1, by omega⟩]
      split at h
      · next hseg0 =>
        cases h
        rw [if_pos hseg0]
        exact ⟨_, rfl, toNat_sub_samePage rfl (show 0x80000000 ≤ _ by omega) (show 0x80000000 ≤ _ by omega) hpage⟩
      · next hnot0 =>
        rw [if_neg hnot0]
        split at h
        · next hseg1 =>
          cases h
          rw [if_pos hseg1]
          exact ⟨_, rfl, toNat_sub_samePage rfl (show 0xA0000000 ≤ _ by omega) (show 0xA0000000 ≤ _ by omega) hpage⟩
        · next hnot1 =>
          rw [if_neg hnot1]
          exact translate_samePage h hpage

/-- Where the store of a word passes its checks, so does a load of an aligned part of the word. -/
theorem reach_part_of_word {s : State} {va : Word} {k : Access} {a i n : Nat} (h : s.reach va 4 k = .ok a)
    (hn : n = 1 ∨ n = 2) (hi : i % n = 0) (htop : i + n ≤ 4) :
    s.reach (va + BitVec.ofNat 32 i) n .load = .ok (a + i) := by
  obtain ⟨hal, ha, _, hlow, hadm, pa, hpa, rfl⟩ := reach_ok (by decide) h
  have hva := va.isLt
  have hsum : (va + BitVec.ofNat 32 i).toNat = va.toNat + i := by
    rw [BitVec.toNat_add, BitVec.toNat_ofNat]; omega
  obtain ⟨pa', hpa', hplace⟩ := physical_samePage (va' := va + BitVec.ofNat 32 i) hpa (by omega)
  have hto : pa'.toNat = pa.toNat + i := by omega
  rw [← hto]
  refine reach_of_admitted (by rcases hn with rfl | rfl <;> omega) hpa' fun j hj => ?_
  rw [hto, Nat.add_assoc]
  exact hadm _ (by omega)

/-! ## Loads after the store of a word -/

/-- What the checks look at, a store leaves alone. -/
theorem reach_writeCells (s : State) (cells : List Host.Cell) (va : Word) (n : Nat) (k : Access) :
    (s.writeCells cells).reach va n k = s.reach va n k := rfl

section
variable {s t : State} {va v : Word}

/-- A stored word is at a physical address where its aligned parts can be loaded, and every byte is the word's. -/
theorem stored_word (hm : Memory.wf s.mem) (h : s.store va (wordBytes s.cfg.bigEndian v) = .ok t) :
    t.cfg = s.cfg ∧ ∃ a,
      (∀ i n, n = 1 ∨ n = 2 → i % n = 0 → i + n ≤ 4 → t.reach (va + BitVec.ofNat 32 i) n .load = .ok (a + i)) ∧
      ∀ i < 4, t.byteAt (a + i) = regByte v (bytePlace s.cfg.bigEndian i) := by
  obtain ⟨a, hreach, rfl⟩ := store_eq_ok h
  rw [wordBytes_length] at hreach
  obtain ⟨_, _, htop, _⟩ := reach_ok (by decide) hreach
  refine ⟨rfl, a, fun i n hn hi hin => ?_, fun i hi => ?_⟩
  · rw [reach_writeCells]; exact reach_part_of_word hreach hn hi hin
  · have hlen : a + (wordBytes s.cfg.bigEndian v).length ≤ 4294967296 := by rwa [wordBytes_length]
    rw [State.byteAt, writeCells_mem, read_writeCells_cellsAt _ s.mem a _ hm hlen,
      dif_pos (by rw [wordBytes_length]; omega)]
    refine Option.some.inj (((List.getElem?_eq_getElem _).symm.trans ?_).trans (wordBytes_getElem? _ v hi))
    rw [Nat.add_sub_cancel_left]

theorem loadByte_of_stored (hm : Memory.wf s.mem) (h : s.store va (wordBytes s.cfg.bigEndian v) = .ok t) {i : Nat}
    (hi : i < 4) : t.loadByte (va + BitVec.ofNat 32 i) = .ok (regByte v (bytePlace s.cfg.bigEndian i)) := by
  obtain ⟨_, a, hreach, hbytes⟩ := stored_word hm h
  rw [loadByte_of_reach (hreach i 1 (.inl rfl) (Nat.mod_one i) hi), hbytes i hi]

theorem loadHalf_of_stored (hm : Memory.wf s.mem) (h : s.store va (wordBytes s.cfg.bigEndian v) = .ok t) {i : Nat}
    (hal : i % 2 = 0) (hi : i < 4) : t.loadHalf (va + BitVec.ofNat 32 i) =
      .ok (assembleHalf s.cfg.bigEndian (regByte v (bytePlace s.cfg.bigEndian i))
        (regByte v (bytePlace s.cfg.bigEndian (i + 1)))) := by
  obtain ⟨hcfg, a, hreach, hbytes⟩ := stored_word hm h
  rw [loadHalf_of_reach (hreach i 2 (.inr rfl) hal (by omega)), State.halfAt, hcfg, hbytes i hi, Nat.add_assoc,
    hbytes (i + 1) (by omega)]

end

/-- Settles O28: each narrow load finds the bytes of the word in the order in force. -/
theorem mixedWidth : Obligations.MixedWidth := by
  intro s t va hm h
  have hbyte0 := loadByte_of_stored hm h (show 0 < 4 by decide)
  have hbyte3 := loadByte_of_stored hm h (show 3 < 4 by decide)
  have hhalf0 := loadHalf_of_stored hm h (Nat.zero_mod 2) (show 0 < 4 by decide)
  have hhalf2 := loadHalf_of_stored hm h (Nat.mod_self 2) (show 2 < 4 by decide)
  rw [BitVec.ofNat_eq_ofNat, BitVec.add_zero] at hbyte0 hhalf0
  refine ⟨fun hbe => ?_, fun hbe => ?_⟩ <;> rw [hbe] at hbyte0 hbyte3 hhalf0 hhalf2 <;>
    exact ⟨hbyte0, hbyte3, hhalf0, hhalf2⟩

end Sys2Proof.Machine
end

section
/-! Words by their fields: the layouts of rule R82 put back together, and what is left of a word once the bits its
instruction does not read are cleared (rules R81, R82, R99). -/

namespace Sys2Proof

/-! ## Layouts (rule R82) -/

theorem packR_fields (w : Word) :
    packR (opOf w) (rsOf w) (rtOf w) (rdOf w) (shamtOf w) (functOf w) = w := by
  refine BitVec.eq_of_getLsbD_eq fun k hk => ?_
  change BitVec.getLsbD (opOf w ++ rsOf w ++ rtOf w ++ rdOf w ++ shamtOf w ++ functOf w) k = _
  simp only [BitVec.getLsbD_append, opOf, rsOf, rtOf, rdOf, shamtOf, functOf, BitVec.getLsbD_extractLsb']
  grind

theorem packI_fields (w : Word) : packI (opOf w) (rsOf w) (rtOf w) (immOf w) = w := by
  refine BitVec.eq_of_getLsbD_eq fun k hk => ?_
  change BitVec.getLsbD (opOf w ++ rsOf w ++ rtOf w ++ immOf w) k = _
  simp only [BitVec.getLsbD_append, opOf, rsOf, rtOf, immOf, BitVec.getLsbD_extractLsb']
  grind

theorem packJ_fields (w : Word) : packJ (opOf w) (targetOf w) = w := by
  refine BitVec.eq_of_getLsbD_eq fun k hk => ?_
  change BitVec.getLsbD (opOf w ++ targetOf w) k = _
  simp only [BitVec.getLsbD_append, opOf, targetOf, BitVec.getLsbD_extractLsb']
  grind

theorem packC_fields (w : Word) : packC (opOf w) (codeOf w) (functOf w) = w := by
  refine BitVec.eq_of_getLsbD_eq fun k hk => ?_
  change BitVec.getLsbD (opOf w ++ codeOf w ++ functOf w) k = _
  simp only [BitVec.getLsbD_append, opOf, codeOf, functOf, BitVec.getLsbD_extractLsb']
  grind

theorem packCo_fields {w : Word} (h : coOf w = 1) : packCo (opOf w) (cofunOf w) = w := by
  refine BitVec.eq_of_getLsbD_eq fun k hk => ?_
  change BitVec.getLsbD (opOf w ++ (1 : BitVec 1) ++ cofunOf w) k = _
  simp only [← h, BitVec.getLsbD_append, opOf, coOf, cofunOf, BitVec.getLsbD_extractLsb']
  grind

theorem packR_eq {op : BitVec 6} {rs rt rd sh : Reg} {fn : BitVec 6} {w : Word} (hop : opOf w = op)
    (hrs : rsOf w = rs) (hrt : rtOf w = rt) (hrd : rdOf w = rd) (hsh : shamtOf w = sh) (hfn : functOf w = fn) :
    packR op rs rt rd sh fn = w := by
  subst hop hrs hrt hrd hsh hfn; exact packR_fields w

theorem packI_eq {op : BitVec 6} {rs rt : Reg} {imm : BitVec 16} {w : Word} (hop : opOf w = op)
    (hrs : rsOf w = rs) (hrt : rtOf w = rt) (himm : immOf w = imm) : packI op rs rt imm = w := by
  subst hop hrs hrt himm; exact packI_fields w

/-! ## Clearing the bits of a mask -/

/-- A field that meets no bit of the mask is kept. -/
theorem extract_kept {w m : Word} {k n : Nat} (h : m.extractLsb' k n = 0) :
    (w &&& ~~~m).extractLsb' k n = w.extractLsb' k n := by
  refine BitVec.eq_of_getLsbD_eq fun j hj => ?_
  have hbit : m.getLsbD (k + j) = false := by simpa [hj] using congrArg (·.getLsbD j) h
  have := w.getLsbD_of_ge (k + j)
  simp only [BitVec.getLsbD_extractLsb', BitVec.getLsbD_and, BitVec.getLsbD_not, hbit]
  grind

/-- A field all of whose bits but the low `j` are in the mask is what those `j` bits are. -/
theorem extract_low {w m : Word} {k n : Nat} (j : Nat) (h : m.extractLsb' k n = BitVec.allOnes n <<< j) :
    (w &&& ~~~m).extractLsb' k n = (w.extractLsb' k j).setWidth n := by
  refine BitVec.eq_of_getLsbD_eq fun l hl => ?_
  have hbit : m.getLsbD (k + l) = !decide (l < j) := by simpa [hl] using congrArg (·.getLsbD l) h
  have := w.getLsbD_of_ge (k + l)
  simp only [BitVec.getLsbD_extractLsb', BitVec.getLsbD_and, BitVec.getLsbD_not, BitVec.getLsbD_setWidth, hbit]
  grind

/-- A field whose bits are all in the mask is 0. -/
theorem extract_cleared {w m : Word} {k n : Nat} (h : m.extractLsb' k n = BitVec.allOnes n) :
    (w &&& ~~~m).extractLsb' k n = 0 := by
  rw [extract_low 0 (by simpa using h)]
  simp

/-- A field that meets no bit of the mask keeps the value it was found to have. -/
theorem extract_kept_eq {w m : Word} {k n : Nat} {v : BitVec n} (hv : (w.extractLsb' k n).toNat = v.toNat)
    (h : m.extractLsb' k n = 0) : (w &&& ~~~m).extractLsb' k n = v :=
  (extract_kept h).trans (BitVec.eq_of_toNat_eq hv)

/-! The words of each layout whose unread bits are cleared. -/

section
variable {op fn : BitVec 6} {rs : Reg} {w : Word} (hop : (opOf w).toNat = op.toNat)
  (hrs : (rsOf w).toNat = rs.toNat) (hfn : (functOf w).toNat = fn.toNat)
include hop hrs hfn

theorem packR_clear_none : packR op rs (rtOf w) (rdOf w) (shamtOf w) fn = w &&& ~~~0 :=
  packR_eq (extract_kept_eq hop rfl) (extract_kept_eq hrs rfl) (extract_kept rfl) (extract_kept rfl)
    (extract_kept rfl) (extract_kept_eq hfn rfl)

theorem packR_clear_sh : packR op rs (rtOf w) (rdOf w) 0 fn = w &&& ~~~0x7C0 :=
  packR_eq (extract_kept_eq hop rfl) (extract_kept_eq hrs rfl) (extract_kept rfl) (extract_kept rfl)
    (extract_cleared rfl) (extract_kept_eq hfn rfl)

theorem packR_clear_rd_sh : packR op rs (rtOf w) 0 0 fn = w &&& ~~~0xFFC0 :=
  packR_eq (extract_kept_eq hop rfl) (extract_kept_eq hrs rfl) (extract_kept rfl) (extract_cleared rfl)
    (extract_cleared rfl) (extract_kept_eq hfn rfl)

theorem packR_clear_rt : packR op rs 0 (rdOf w) (shamtOf w) fn = w &&& ~~~0x1F0000 :=
  packR_eq (extract_kept_eq hop rfl) (extract_kept_eq hrs rfl) (extract_cleared rfl) (extract_kept rfl)
    (extract_kept rfl) (extract_kept_eq hfn rfl)

theorem packR_clear_rt_sh : packR op rs 0 (rdOf w) 0 fn = w &&& ~~~0x1F07C0 :=
  packR_eq (extract_kept_eq hop rfl) (extract_kept_eq hrs rfl) (extract_cleared rfl) (extract_kept rfl)
    (extract_cleared rfl) (extract_kept_eq hfn rfl)

theorem packR_clear_rt_rd_sh : packR op rs 0 0 0 fn = w &&& ~~~0x1FFFC0 :=
  packR_eq (extract_kept_eq hop rfl) (extract_kept_eq hrs rfl) (extract_cleared rfl) (extract_cleared rfl)
    (extract_cleared rfl) (extract_kept_eq hfn rfl)

omit hrs in
theorem packR_clear_rs : packR op 0 (rtOf w) (rdOf w) (shamtOf w) fn = w &&& ~~~0x3E00000 :=
  packR_eq (extract_kept_eq hop rfl) (extract_cleared rfl) (extract_kept rfl) (extract_kept rfl)
    (extract_kept rfl) (extract_kept_eq hfn rfl)

omit hrs in
theorem packR_clear_rs_rt_sh : packR op 0 0 (rdOf w) 0 fn = w &&& ~~~0x3FF07C0 :=
  packR_eq (extract_kept_eq hop rfl) (extract_cleared rfl) (extract_cleared rfl) (extract_kept rfl)
    (extract_cleared rfl) (extract_kept_eq hfn rfl)

omit hfn in
theorem packR_clear_sh_fn : packR op rs (rtOf w) (rdOf w) 0 0 = w &&& ~~~0x7FF :=
  packR_eq (extract_kept_eq hop rfl) (extract_kept_eq hrs rfl) (extract_kept rfl) (extract_kept rfl)
    (extract_cleared rfl) (extract_cleared rfl)

omit hfn in
theorem packR_clear_cp0 (h : (cp0FunctOf w).setWidth 6 = fn) : packR op rs 0 0 0 fn = w &&& ~~~0x1FFFE0 :=
  packR_eq (extract_kept_eq hop rfl) (extract_kept_eq hrs rfl) (extract_cleared rfl) (extract_cleared rfl)
    (extract_cleared rfl) ((extract_low 5 rfl).trans h)

omit hfn in
theorem packI_clear_none {rt : Reg} (hrt : (rtOf w).toNat = rt.toNat) :
    packI op rs rt (immOf w) = w &&& ~~~0 :=
  packI_eq (extract_kept_eq hop rfl) (extract_kept_eq hrs rfl) (extract_kept_eq hrt rfl) (extract_kept rfl)

omit hfn in
theorem packI_clear_rt : packI op rs 0 (immOf w) = w &&& ~~~0x1F0000 :=
  packI_eq (extract_kept_eq hop rfl) (extract_kept_eq hrs rfl) (extract_cleared rfl) (extract_kept rfl)

omit hrs hfn in
theorem packI_clear_rs : packI op 0 (rtOf w) (immOf w) = w &&& ~~~0x3E00000 :=
  packI_eq (extract_kept_eq hop rfl) (extract_cleared rfl) (extract_kept rfl) (extract_kept rfl)

omit hfn in
theorem packI_clear_branch_false (htf : tfOf w = 0) : packI op rs 0 (immOf w) = w &&& ~~~0x1E0000 :=
  packI_eq (extract_kept_eq hop rfl) (extract_kept_eq hrs rfl)
    ((extract_low 1 rfl).trans (congrArg (BitVec.setWidth 5) htf)) (extract_kept rfl)

omit hfn in
theorem packI_clear_branch_true (htf : tfOf w ≠ 0) : packI op rs 1 (immOf w) = w &&& ~~~0x1E0000 :=
  packI_eq (extract_kept_eq hop rfl) (extract_kept_eq hrs rfl)
    ((extract_low 1 rfl).trans (congrArg (BitVec.setWidth 5) ((BitVec.eq_zero_or_eq_one _).resolve_left htf)))
    (extract_kept rfl)

end

theorem and_not_zero (w : Word) : w &&& ~~~0 = w :=
  (congrArg (w &&& ·) BitVec.not_zero).trans BitVec.and_allOnes

theorem packC_clear_none {op fn : BitVec 6} {w : Word} (hop : (opOf w).toNat = op.toNat)
    (hfn : (functOf w).toNat = fn.toNat) : packC op (codeOf w) fn = w &&& ~~~0 := by
  rw [← BitVec.eq_of_toNat_eq hop, ← BitVec.eq_of_toNat_eq hfn, packC_fields, and_not_zero]

theorem packCo_clear_none {op : BitVec 6} {w : Word} (hop : (opOf w).toNat = op.toNat) (hco : coOf w = 1) :
    packCo op (cofunOf w) = w &&& ~~~0 := by
  rw [← BitVec.eq_of_toNat_eq hop, packCo_fields hco, and_not_zero]

theorem packJ_clear_none {op : BitVec 6} {w : Word} (hop : (opOf w).toNat = op.toNat) :
    packJ op (targetOf w) = w &&& ~~~0 := by
  rw [← BitVec.eq_of_toNat_eq hop, packJ_fields, and_not_zero]

/-- The bits of an instruction's word that the decoder does not read: those that should be zero, and bits 25:21
of the immediate shifts, which are ignored (rule R99). -/
def Instr.unreadMask (i : Instr) : Word :=
  match i with
  | .sll _ _ _ | .srl _ _ _ | .sra _ _ _ => 0x03E00000
  | _ => i.sbzMask

theorem encode_of_decodeSpecial {f : BitVec 5} {w : Word} {i : Instr} (hop : (opOf w).toNat = 0)
    (h : decodeSpecial w = some i) : encode f i = w &&& ~~~i.unreadMask := by
  unfold decodeSpecial at h
  split at h <;> cases h
  -- sll, srl, sra
  case h_1 | h_2 | h_3 => exact packR_clear_rs hop ‹_›
  -- jr, mthi, mtlo
  case h_7 | h_12 | h_14 => exact packR_clear_rt_rd_sh hop rfl ‹_›
  -- jalr
  case h_8 => exact packR_clear_rt_sh hop rfl ‹_›
  -- syscall, break
  case h_9 | h_10 => exact packC_clear_none hop ‹_›
  -- mfhi, mflo
  case h_11 | h_13 => exact packR_clear_rs_rt_sh hop ‹_›
  -- mult, multu, div, divu
  case h_15 | h_16 | h_17 | h_18 => exact packR_clear_rd_sh hop rfl ‹_›
  -- three registers
  all_goals exact packR_clear_sh hop rfl ‹_›

theorem encode_of_decodeRegimm {f : BitVec 5} {w : Word} {i : Instr} (hop : (opOf w).toNat = 1)
    (h : decodeRegimm w = some i) : encode f i = w &&& ~~~i.unreadMask := by
  unfold decodeRegimm at h
  split at h <;> cases h <;> exact packI_clear_none hop rfl ‹_›

theorem encode_of_decodeCp0 {f : BitVec 5} {w : Word} {i : Instr} (hop : (opOf w).toNat = 16)
    (hrs : (rsOf w).toNat = 16) (h : decodeCp0 w = some i) : encode f i = w &&& ~~~i.unreadMask := by
  unfold decodeCp0 at h
  split at h <;> cases h <;> exact packR_clear_cp0 hop hrs (BitVec.eq_of_toNat_eq (by simp [*]))

theorem encode_of_decodeFpSingle {f : BitVec 5} {w : Word} {i : Instr} (hop : (opOf w).toNat = 17)
    (hrs : (rsOf w).toNat = 16) (h : decodeFpSingle w = some i) : encode f i = w &&& ~~~i.unreadMask := by
  unfold decodeFpSingle at h
  split at h <;> cases h
  -- two operands and a destination
  case h_1 | h_2 | h_3 | h_4 => exact packR_clear_none hop hrs ‹_›
  -- one operand and a destination
  case h_5 | h_6 | h_7 | h_8 | h_9 => exact packR_clear_rt hop hrs ‹_›
  -- compares
  all_goals exact packR_clear_sh hop hrs ‹_›

theorem encode_of_decodeFpDouble {f : BitVec 5} {w : Word} {i : Instr} (hop : (opOf w).toNat = 17)
    (hrs : (rsOf w).toNat = 17) (h : decodeFpDouble w = some i) : encode f i = w &&& ~~~i.unreadMask := by
  unfold decodeFpDouble at h
  split at h <;> cases h
  -- two operands and a destination
  case h_1 | h_2 | h_3 | h_4 => exact packR_clear_none hop hrs ‹_›
  -- one operand and a destination
  case h_5 | h_6 | h_7 | h_8 | h_9 => exact packR_clear_rt hop hrs ‹_›
  -- compares
  all_goals exact packR_clear_sh hop hrs ‹_›

theorem encode_of_decodeFpWord {f : BitVec 5} {w : Word} {i : Instr} (hop : (opOf w).toNat = 17)
    (hrs : rsOf w = f) (h : decodeFpWord w = some i) : encode f i = w &&& ~~~i.unreadMask := by
  unfold decodeFpWord at h
  split at h <;> cases h <;> exact packR_clear_rt hop (congrArg _ hrs) ‹_›

theorem encode_of_decodeCop0 {f : BitVec 5} {w : Word} {i : Instr} (hop : (opOf w).toNat = 16)
    (h : decodeCop0 w = some i) : encode f i = w &&& ~~~i.unreadMask := by
  unfold decodeCop0 at h
  split at h
  -- the branches, by bit 16
  case h_5 =>
    split at h <;> cases h
    · exact packI_clear_branch_false hop ‹_› ‹_›
    · exact packI_clear_branch_true hop ‹_› ‹_›
  case h_6 => exact encode_of_decodeCp0 hop ‹_› h
  -- the moves
  all_goals cases h <;> exact packR_clear_sh_fn hop ‹_›

theorem encode_of_decodeCop1 {f : BitVec 5} {w : Word} {i : Instr} (hop : (opOf w).toNat = 17)
    (h : decodeCop1 f w = some i) : encode f i = w &&& ~~~i.unreadMask := by
  unfold decodeCop1 at h
  split at h
  -- the branches, by bit 16
  case h_5 =>
    split at h <;> cases h
    · exact packI_clear_branch_false hop ‹_› ‹_›
    · exact packI_clear_branch_true hop ‹_› ‹_›
  -- the formats `s`, `d` and `FMT_W`
  case h_6 => exact encode_of_decodeFpSingle hop ‹_› h
  case h_7 => exact encode_of_decodeFpDouble hop ‹_› h
  case h_8 =>
    split at h
    · exact encode_of_decodeFpWord hop ‹_› h
    · cases h
  -- the moves
  all_goals cases h; exact packR_clear_sh_fn hop ‹_›

theorem encode_of_decodeCop2 {f : BitVec 5} {w : Word} {i : Instr} (hop : (opOf w).toNat = 18)
    (h : decodeCop2 w = some i) : encode f i = w &&& ~~~i.unreadMask := by
  unfold decodeCop2 at h
  split at h
  · cases h; exact packCo_clear_none hop ‹_›
  · split at h
    -- the branches, by bit 16
    case h_5 =>
      split at h <;> cases h
      · exact packI_clear_branch_false hop ‹_› ‹_›
      · exact packI_clear_branch_true hop ‹_› ‹_›
    -- the moves
    all_goals cases h <;> exact packR_clear_sh_fn hop ‹_›

theorem encode_of_decodeCop3 {f : BitVec 5} {w : Word} {i : Instr} (hop : (opOf w).toNat = 19)
    (h : decodeCop3 w = some i) : encode f i = w &&& ~~~i.unreadMask := by
  unfold decodeCop3 at h
  split at h
  · cases h; exact packCo_clear_none hop ‹_›
  · split at h
    -- the branches, by bit 16
    case h_5 =>
      split at h <;> cases h
      · exact packI_clear_branch_false hop ‹_› ‹_›
      · exact packI_clear_branch_true hop ‹_› ‹_›
    -- the moves
    all_goals cases h <;> exact packR_clear_sh_fn hop ‹_›

/-- Encoding what a word decodes to gives the word back, but for the bits the decoder does not read. -/
theorem encode_of_decodeRow {f : BitVec 5} {w : Word} {i : Instr} (h : decodeRow f w = some i) :
    encode f i = w &&& ~~~i.unreadMask := by
  unfold decodeRow at h
  split at h
  -- the tables `op` points to
  case h_1 => exact encode_of_decodeSpecial ‹_› h
  case h_2 => exact encode_of_decodeRegimm ‹_› h
  case h_17 => exact encode_of_decodeCop0 ‹_› h
  case h_18 => exact encode_of_decodeCop1 ‹_› h
  case h_19 => exact encode_of_decodeCop2 ‹_› h
  case h_20 => exact encode_of_decodeCop3 ‹_› h
  all_goals cases h
  -- j, jal
  case h_3 | h_4 => exact packJ_clear_none ‹_›
  -- blez, bgtz
  case h_7 | h_8 => exact packI_clear_rt ‹_› rfl
  -- lui
  case h_16 => exact packI_clear_rs ‹_›
  -- two registers and 16 bits
  all_goals exact packI_clear_none ‹_› rfl rfl

end Sys2Proof
end

section
/-! The round trip through the encoder for every instruction (rules R82, R84, R99). -/

namespace Sys2Proof.Laws.RoundTrip

theorem statement_all : ∀ i : Instr, Statement i
  | .add _ _ _ => add _ _ _ | .addu _ _ _ => addu _ _ _ | .and _ _ _ => and _ _ _ | .nor _ _ _ => nor _ _ _
  | .or _ _ _ => or _ _ _ | .sub _ _ _ => sub _ _ _ | .subu _ _ _ => subu _ _ _ | .xor _ _ _ => xor _ _ _
  | .slt _ _ _ => slt _ _ _ | .sltu _ _ _ => sltu _ _ _ | .sllv _ _ _ => sllv _ _ _ | .srav _ _ _ => srav _ _ _
  | .srlv _ _ _ => srlv _ _ _ | .sll _ _ _ => sll _ _ _ | .sra _ _ _ => sra _ _ _ | .srl _ _ _ => srl _ _ _
  | .div _ _ => div _ _ | .divu _ _ => divu _ _ | .mult _ _ => mult _ _ | .multu _ _ => multu _ _
  | .jr _ => jr _ | .jalr _ _ => jalr _ _ | .mthi _ => mthi _ | .mtlo _ => mtlo _ | .mfhi _ => mfhi _
  | .mflo _ => mflo _ | .syscall _ => syscall _ | .brk _ => brk _ | .addi _ _ _ => addi _ _ _
  | .addiu _ _ _ => addiu _ _ _ | .andi _ _ _ => andi _ _ _ | .ori _ _ _ => ori _ _ _
  | .xori _ _ _ => xori _ _ _ | .lui _ _ => lui _ _ | .slti _ _ _ => slti _ _ _ | .sltiu _ _ _ => sltiu _ _ _
  | .beq _ _ _ => beq _ _ _ | .bne _ _ _ => bne _ _ _ | .blez _ _ => blez _ _ | .bgtz _ _ => bgtz _ _
  | .bltz _ _ => bltz _ _ | .bgez _ _ => bgez _ _ | .bltzal _ _ => bltzal _ _ | .bgezal _ _ => bgezal _ _
  | .j _ => j _ | .jal _ => jal _ | .lb _ _ _ => lb _ _ _ | .lbu _ _ _ => lbu _ _ _ | .lh _ _ _ => lh _ _ _
  | .lhu _ _ _ => lhu _ _ _ | .lw _ _ _ => lw _ _ _ | .lwl _ _ _ => lwl _ _ _ | .lwr _ _ _ => lwr _ _ _
  | .sb _ _ _ => sb _ _ _ | .sh _ _ _ => sh _ _ _ | .sw _ _ _ => sw _ _ _ | .swl _ _ _ => swl _ _ _
  | .swr _ _ _ => swr _ _ _ | .lwc0 _ _ _ => lwc0 _ _ _ | .swc0 _ _ _ => swc0 _ _ _ | .lwc1 _ _ _ => lwc1 _ _ _
  | .swc1 _ _ _ => swc1 _ _ _ | .lwc2 _ _ _ => lwc2 _ _ _ | .swc2 _ _ _ => swc2 _ _ _
  | .lwc3 _ _ _ => lwc3 _ _ _ | .swc3 _ _ _ => swc3 _ _ _ | .mfc0 _ _ => mfc0 _ _ | .cfc0 _ _ => cfc0 _ _
  | .mtc0 _ _ => mtc0 _ _ | .ctc0 _ _ => ctc0 _ _ | .bc0f _ => bc0f _ | .bc0t _ => bc0t _
  | .mfc1 _ _ => mfc1 _ _ | .cfc1 _ _ => cfc1 _ _ | .mtc1 _ _ => mtc1 _ _ | .ctc1 _ _ => ctc1 _ _
  | .bc1f _ => bc1f _ | .bc1t _ => bc1t _ | .mfc2 _ _ => mfc2 _ _ | .cfc2 _ _ => cfc2 _ _
  | .mtc2 _ _ => mtc2 _ _ | .ctc2 _ _ => ctc2 _ _ | .bc2f _ => bc2f _ | .bc2t _ => bc2t _
  | .mfc3 _ _ => mfc3 _ _ | .cfc3 _ _ => cfc3 _ _ | .mtc3 _ _ => mtc3 _ _ | .ctc3 _ _ => ctc3 _ _
  | .bc3f _ => bc3f _ | .bc3t _ => bc3t _ | .tlbr => tlbr | .tlbwi => tlbwi | .tlbwr => tlbwr | .tlbp => tlbp
  | .rfe => rfe | .cop2 _ => cop2 _ | .cop3 _ => cop3 _ | .absD _ _ => absD _ _ | .absS _ _ => absS _ _
  | .addD _ _ _ => addD _ _ _ | .addS _ _ _ => addS _ _ _ | .cvtDS _ _ => cvtDS _ _ | .cvtDW _ _ => cvtDW _ _
  | .cvtSD _ _ => cvtSD _ _ | .cvtSW _ _ => cvtSW _ _ | .cvtWD _ _ => cvtWD _ _ | .cvtWS _ _ => cvtWS _ _
  | .divD _ _ _ => divD _ _ _ | .divS _ _ _ => divS _ _ _ | .movD _ _ => movD _ _ | .movS _ _ => movS _ _
  | .mulD _ _ _ => mulD _ _ _ | .mulS _ _ _ => mulS _ _ _ | .negD _ _ => negD _ _ | .negS _ _ => negS _ _
  | .subD _ _ _ => subD _ _ _ | .subS _ _ _ => subS _ _ _ | .cFS _ _ => cFS _ _ | .cFD _ _ => cFD _ _
  | .cUnS _ _ => cUnS _ _ | .cUnD _ _ => cUnD _ _ | .cEqS _ _ => cEqS _ _ | .cEqD _ _ => cEqD _ _
  | .cUeqS _ _ => cUeqS _ _ | .cUeqD _ _ => cUeqD _ _ | .cOltS _ _ => cOltS _ _ | .cOltD _ _ => cOltD _ _
  | .cUltS _ _ => cUltS _ _ | .cUltD _ _ => cUltD _ _ | .cOleS _ _ => cOleS _ _ | .cOleD _ _ => cOleD _ _
  | .cUleS _ _ => cUleS _ _ | .cUleD _ _ => cUleD _ _ | .cSfS _ _ => cSfS _ _ | .cSfD _ _ => cSfD _ _
  | .cNgleS _ _ => cNgleS _ _ | .cNgleD _ _ => cNgleD _ _ | .cSeqS _ _ => cSeqS _ _ | .cSeqD _ _ => cSeqD _ _
  | .cNglS _ _ => cNglS _ _ | .cNglD _ _ => cNglD _ _ | .cLtS _ _ => cLtS _ _ | .cLtD _ _ => cLtD _ _
  | .cNgeS _ _ => cNgeS _ _ | .cNgeD _ _ => cNgeD _ _ | .cLeS _ _ => cLeS _ _ | .cLeD _ _ => cLeD _ _
  | .cNgtS _ _ => cNgtS _ _ | .cNgtD _ _ => cNgtD _ _

end Sys2Proof.Laws.RoundTrip
end

section
/-! What the decoder answers, by the tables and the policy. Decoding and encoding are inverse, but for the
bits the decoder does not read (rules R82, R84, R99). -/

namespace Sys2Proof

/-- Decoding finds an instruction where the tables do, and under `refuse` no bit that should be zero is set. -/
theorem decode_eq_instr_iff {c : Config} {w : Word} {i : Instr} :
    decode c w = .instr i ↔
      decodeRow c.fmtW w = some i ∧ (c.sbzPolicy = .refuse → w &&& i.sbzMask = 0) := by
  unfold decode
  cases hrow : decodeRow c.fmtW w with
  | none => simp
  | some j =>
    by_cases hs : c.sbzPolicy = .refuse ∧ w &&& j.sbzMask ≠ 0
    · obtain ⟨hpolicy, hne⟩ := hs
      simp only [if_pos (And.intro hpolicy hne), reduceCtorEq, false_iff, Option.some.injEq]
      rintro ⟨rfl, hzero⟩
      exact hne (hzero hpolicy)
    · simp only [if_neg hs, Decoded.instr.injEq, Option.some.injEq]
      grind

theorem decode_of_ignore {c : Config} {w : Word} {i : Instr} (hpolicy : c.sbzPolicy = .ignore) :
    decode c w = .instr i ↔ decodeRow c.fmtW w = some i := by
  simp [decode_eq_instr_iff, hpolicy]

theorem decode_of_refuse {c : Config} {w : Word} {i : Instr} (hpolicy : c.sbzPolicy = .refuse)
    (h : decodeRow c.fmtW w = some i) :
    decode c w = if w &&& i.sbzMask = 0 then .instr i else .nonZeroSbz i := by
  by_cases hzero : w &&& i.sbzMask = 0 <;> simp [decode, h, hpolicy, hzero]

theorem decode_ne_nonZeroSbz_of_ignore {c : Config} (hpolicy : c.sbzPolicy = .ignore) (w : Word) (i : Instr) :
    decode c w ≠ .nonZeroSbz i := by
  unfold decode
  cases decodeRow c.fmtW w <;> simp [hpolicy]

theorem decode_eq_reserved_iff {c : Config} {w : Word} :
    (∃ z, decode c w = .reserved z) ↔ decodeRow c.fmtW w = none := by
  unfold decode
  cases decodeRow c.fmtW w with
  | none => simp
  | some i =>
    dsimp only
    split <;> simp

theorem and_not_of_and_eq_zero {w m : Word} (h : w &&& m = 0) : w &&& ~~~m = w := by
  refine BitVec.eq_of_getLsbD_eq fun k hk => ?_
  have hbit : (w.getLsbD k && m.getLsbD k) = false := by simpa using congrArg (·.getLsbD k) h
  simp only [BitVec.getLsbD_and, BitVec.getLsbD_not]
  grind

/-- The bits not read are those that should be zero, but for the three immediate shifts. -/
theorem unreadMask_cases (i : Instr) :
    (∃ rd rt sh, i = .sll rd rt sh ∨ i = .srl rd rt sh ∨ i = .sra rd rt sh) ∧ i.unreadMask = 0x3E00000 ∨
      i.unreadMask = i.sbzMask := by
  unfold Instr.unreadMask
  split
  · exact .inl ⟨⟨_, _, _, .inl rfl⟩, rfl⟩
  · exact .inl ⟨⟨_, _, _, .inr (.inl rfl)⟩, rfl⟩
  · exact .inl ⟨⟨_, _, _, .inr (.inr rfl)⟩, rfl⟩
  · exact .inr rfl

/-- Settles O1: the tables read the encoder's word back, and the encoder sets no bit that should be zero. -/
theorem decodeOfEncode : Obligations.DecodeOfEncode := fun c i hfree =>
  have ⟨hrow, hsbz⟩ := Laws.RoundTrip.statement_all i c.fmtW hfree
  decode_eq_instr_iff.2 ⟨hrow, fun _ => hsbz⟩

/-- Settles O2: encoding clears the bits the decoder does not read, and under `refuse` those that should be zero
are zero already. -/
theorem encodeOfDecode : Obligations.EncodeOfDecode := by
  intro c w i hpolicy hdec
  obtain ⟨hrow, hsbz⟩ := decode_eq_instr_iff.1 hdec
  rw [encode_of_decodeRow hrow]
  rcases unreadMask_cases i with ⟨hshift, hmask⟩ | hmask
  · exact .inr ⟨hshift, by rw [hmask]; rfl⟩
  · exact .inl (by rw [hmask, and_not_of_and_eq_zero (hsbz hpolicy)])

/-- Settles O4: the decoder evaluated on the words of each table, and on those the spec prints. -/
theorem decodeWords : Obligations.DecodeWords := by
  refine ⟨?_, ?_, ?_, ?_, ?_, ?_, ?_⟩ <;> decide

end Sys2Proof
end

section
/-! The reserved cells of the tables (rules R100, R101). -/

namespace Sys2Proof.Machine

/-! ## The blank cells of each table (rule R100) -/

theorem decodeSpecial_eq_none_iff {w : Word} : decodeSpecial w = none ↔
    let fn := (functOf w).toNat
    fn = 1 ∨ fn = 5 ∨ fn = 10 ∨ fn = 11 ∨ fn = 14 ∨ fn = 15 ∨ (20 ≤ fn ∧ fn ≤ 23) ∨
      (28 ≤ fn ∧ fn ≤ 31) ∨ fn = 40 ∨ fn = 41 ∨ 44 ≤ fn := by
  unfold decodeSpecial
  split <;> simp only [reduceCtorEq, false_iff, true_iff]
  case h_29 => simp only [imp_false] at *; omega
  all_goals omega

theorem decodeRegimm_eq_none_iff {w : Word} : decodeRegimm w = none ↔
    let rt := (rtOf w).toNat
    (2 ≤ rt ∧ rt ≤ 15) ∨ 18 ≤ rt := by
  unfold decodeRegimm
  split <;> simp only [reduceCtorEq, false_iff, true_iff]
  case h_5 => simp only [imp_false] at *; omega
  all_goals omega

theorem decodeCp0_eq_none_iff {w : Word} : decodeCp0 w = none ↔
    let f4 := (cp0FunctOf w).toNat
    f4 = 0 ∨ f4 = 3 ∨ f4 = 4 ∨ f4 = 5 ∨ f4 = 7 ∨ (9 ≤ f4 ∧ f4 ≤ 15) ∨ 17 ≤ f4 := by
  unfold decodeCp0
  split <;> simp only [reduceCtorEq, false_iff, true_iff]
  case h_6 => simp only [imp_false] at *; omega
  all_goals omega

/-- The function values blank in both of the formats `s` and `d`. -/
def blankFp (fn : Nat) : Prop :=
  fn = 4 ∨ (8 ≤ fn ∧ fn ≤ 31) ∨ fn = 34 ∨ fn = 35 ∨ (37 ≤ fn ∧ fn ≤ 47)

theorem decodeFpSingle_eq_none_iff {w : Word} :
    decodeFpSingle w = none ↔ blankFp (functOf w).toNat ∨ (functOf w).toNat = 32 := by
  have := (functOf w).isLt
  unfold decodeFpSingle blankFp
  split <;> simp only [reduceCtorEq, false_iff, true_iff]
  case h_26 => simp only [imp_false] at *; omega
  all_goals omega

theorem decodeFpDouble_eq_none_iff {w : Word} :
    decodeFpDouble w = none ↔ blankFp (functOf w).toNat ∨ (functOf w).toNat = 33 := by
  have := (functOf w).isLt
  unfold decodeFpDouble blankFp
  split <;> simp only [reduceCtorEq, false_iff, true_iff]
  case h_26 => simp only [imp_false] at *; omega
  all_goals omega

theorem decodeFpWord_eq_none_iff {w : Word} :
    decodeFpWord w = none ↔ (functOf w).toNat ≠ 32 ∧ (functOf w).toNat ≠ 33 := by
  unfold decodeFpWord
  split <;> simp only [reduceCtorEq, false_iff, true_iff]
  case h_3 => simp only [imp_false] at *; omega
  all_goals omega

/-- The values of `rs` blank in each of the four coprocessor spaces. -/
def blankCop (rs : Nat) : Prop := rs = 1 ∨ rs = 3 ∨ rs = 5 ∨ rs = 7 ∨ (9 ≤ rs ∧ rs ≤ 15)

theorem decodeCop0_eq_none_iff {w : Word} : decodeCop0 w = none ↔
    let rs := (rsOf w).toNat
    blankCop rs ∨ (rs = 16 ∧ decodeCp0 w = none) ∨ 17 ≤ rs := by
  unfold decodeCop0 blankCop
  split
  case h_5 => split <;> simp only [reduceCtorEq, false_iff] <;> omega
  all_goals simp only [reduceCtorEq, false_iff, true_iff]
  case h_6 => simp [*]
  case h_7 => simp only [imp_false] at *; omega
  all_goals omega

theorem decodeCop1_eq_none_iff {f : BitVec 5} {w : Word} (hf : 17 < f.toNat) : decodeCop1 f w = none ↔
    let rs := (rsOf w).toNat
    let fn := (functOf w).toNat
    blankCop rs ∨ (18 ≤ rs ∧ rs ≠ f.toNat) ∨ ((rs = 16 ∨ rs = 17) ∧ blankFp fn) ∨ (rs = 16 ∧ fn = 32) ∨
      (rs = 17 ∧ fn = 33) ∨ (rs = f.toNat ∧ fn ≠ 32 ∧ fn ≠ 33) := by
  unfold decodeCop1 blankCop
  split
  case h_5 => split <;> simp only [reduceCtorEq, false_iff] <;> omega
  -- the formats `s`, `d` and `FMT_W`
  case h_6 => grind [decodeFpSingle_eq_none_iff]
  case h_7 => grind [decodeFpDouble_eq_none_iff]
  case h_8 =>
    have hinj := BitVec.toNat_inj (x := rsOf w) (y := f)
    grind [decodeFpWord_eq_none_iff]
  all_goals simp only [reduceCtorEq, false_iff]; omega

/-- Bit 25, the top bit of `rs`, tells the operations of a coprocessor from the rest of its space. -/
theorem coOf_eq_one_iff {w : Word} : coOf w = 1 ↔ 16 ≤ (rsOf w).toNat := by
  have h : coOf w = (rsOf w).extractLsb' 4 1 := by
    rw [← packR_fields w]; simp
  rw [h]
  generalize rsOf w = rs
  revert rs; decide

theorem decodeCop2_eq_none_iff {w : Word} : decodeCop2 w = none ↔ blankCop (rsOf w).toNat := by
  unfold decodeCop2 blankCop
  split <;> rename_i hco <;> rw [coOf_eq_one_iff] at hco
  · simp only [reduceCtorEq, false_iff]; omega
  · split
    case h_5 => split <;> simp only [reduceCtorEq, false_iff] <;> omega
    all_goals simp only [reduceCtorEq, false_iff, true_iff]
    case h_6 => simp only [imp_false] at *; omega
    all_goals omega

theorem decodeCop3_eq_none_iff {w : Word} : decodeCop3 w = none ↔ blankCop (rsOf w).toNat := by
  unfold decodeCop3 blankCop
  split <;> rename_i hco <;> rw [coOf_eq_one_iff] at hco
  · simp only [reduceCtorEq, false_iff]; omega
  · split
    case h_5 => split <;> simp only [reduceCtorEq, false_iff] <;> omega
    all_goals simp only [reduceCtorEq, false_iff, true_iff]
    case h_6 => simp only [imp_false] at *; omega
    all_goals omega

/-! ## The blank cells of the whole map -/

/-- The values of `op` blank in the first table. -/
def blankOp (op : Nat) : Prop :=
  (20 ≤ op ∧ op ≤ 31) ∨ op = 39 ∨ op = 44 ∨ op = 45 ∨ op = 47 ∨ (52 ≤ op ∧ op ≤ 55) ∨ 60 ≤ op

theorem unassigned_of_blankOp {f : Nat} {w : Word} (h : blankOp (opOf w).toNat) : unassigned f w := by
  rcases h with h | h | h | h | h | h | h <;> simp [unassigned, h]

theorem decodeRow_eq_none_iff {f : BitVec 5} {w : Word} (hf : 17 < f.toNat) :
    decodeRow f w = none ↔ unassigned f.toNat w := by
  unfold decodeRow
  split
  -- the tables `op` points to
  case h_1 => simp [unassigned, *, decodeSpecial_eq_none_iff]
  case h_2 => simp [unassigned, *, decodeRegimm_eq_none_iff]
  case h_17 => simp [unassigned, *, decodeCop0_eq_none_iff, decodeCp0_eq_none_iff, blankCop, or_assoc]
  case h_18 => simp [unassigned, *, decodeCop1_eq_none_iff hf, blankCop, blankFp]
  case h_19 => simp [unassigned, *, decodeCop2_eq_none_iff, blankCop]
  case h_20 => simp [unassigned, *, decodeCop3_eq_none_iff, blankCop]
  -- the blank cells of the first table
  case h_41 =>
    refine iff_of_true rfl (unassigned_of_blankOp ?_)
    unfold blankOp
    simp only [imp_false] at *
    omega
  all_goals simp [unassigned, *]

/-- A word lies in a coprocessor's space when its `op` is that coprocessor's. -/
theorem op_of_copSpace {w : Word} {z : CopNum} (h : copSpace w = some z) : (opOf w).toNat = 16 + z.toNat := by
  unfold copSpace at h
  split at h <;> cases h <;> assumption

/-- Settles O3: the cells the tables leave blank, and the exception of a word in one once its coprocessor's test has
passed. -/
theorem reservedEncodings : Obligations.ReservedEncodings := by
  refine ⟨fun c w hfmt => decode_eq_reserved_iff.trans (decodeRow_eq_none_iff hfmt),
    fun s w hfmt hblank hready hgate => ?_⟩
  have hrow : decodeRow s.cfg.fmtW w = none := (decodeRow_eq_none_iff hfmt).2 hblank
  have hpass : (copSpace w).bind s.gate = none := by
    cases hz : copSpace w with
    | none => rfl
    | some z => exact hgate z (op_of_copSpace hz)
  rw [step_of_ready hready, decode, hrow]
  simp [State.runDecoded, hpass]

end Sys2Proof.Machine
end

section
/-! The reports a word's `op` alone decides: the refusals of rule R355 and the coprocessor test (rule R101). -/

namespace Sys2Proof.Machine

theorem opOf_unreadMask (i : Instr) : opOf i.unreadMask = 0 := by
  cases i <;> simp [Instr.unreadMask, Instr.sbzMask, opOf]

theorem opOf_encode_of_decodeRow {f : BitVec 5} {w : Word} {i : Instr} (h : decodeRow f w = some i) :
    opOf (encode f i) = opOf w := by
  rw [encode_of_decodeRow h]
  exact extract_kept (opOf_unreadMask i)

/-- The coprocessor whose space, loads or stores an `op` value stands for (rules R84, R101). -/
def opCoprocessor : Nat → Option CopNum
  | 0x10 | 0x30 | 0x38 => some 0
  | 0x11 | 0x31 | 0x39 => some 1
  | 0x12 | 0x32 | 0x3a => some 2
  | 0x13 | 0x33 | 0x3b => some 3
  | _ => none

theorem coprocessor_eq_of_encode (f : BitVec 5) (i : Instr) :
    coprocessor i = opCoprocessor (opOf (encode f i)).toNat := by
  cases i <;> simp [encode, coprocessor, opCoprocessor]

theorem isCop0LoadStore_iff_encode (f : BitVec 5) (i : Instr) :
    isCop0LoadStore i = true ↔ (opOf (encode f i)).toNat = 0x30 ∨ (opOf (encode f i)).toNat = 0x38 := by
  cases i <;> simp [encode, isCop0LoadStore]

/-- What is reported of a word by its `op` alone, before all else: the refusal of `lwc0` and `swc0`, then the test
of its coprocessor (rules R101, R355). -/
def State.opStop (s : State) (op : Nat) : Option Stop :=
  if op = 0x30 ∨ op = 0x38 then some (.refuse .cop0LoadStore) else (opCoprocessor op).bind s.gate

theorem decodeStop_eq_opStop {f : BitVec 5} {w : Word} {i : Instr} (s : State) (h : decodeRow f w = some i) :
    s.decodeStop i = s.opStop (opOf w).toNat := by
  unfold State.decodeStop State.opStop
  simp only [isCop0LoadStore_iff_encode f, coprocessor_eq_of_encode f, opOf_encode_of_decodeRow h]
  cases opCoprocessor (opOf w).toNat <;> rfl

/-- Of a word outside the tables `op` reports only the test of the coprocessor whose space it lies in. -/
theorem copSpace_gate_eq_opStop {f : BitVec 5} {w : Word} (s : State) (h : decodeRow f w = none) :
    (copSpace w).bind s.gate = s.opStop (opOf w).toNat := by
  unfold decodeRow at h
  split at h
  -- a blank cell of the first table
  case h_41 =>
    simp only [imp_false] at *
    simp [copSpace, State.opStop, opCoprocessor, *]
  -- a blank cell of a table `op` points to
  case h_1 | h_2 | h_17 | h_18 | h_19 | h_20 => simp [copSpace, State.opStop, opCoprocessor, *]
  all_goals cases h

/-- What a word's `op` has reported is what the step reports of it, whatever the word decodes to. -/
theorem runDecoded_of_opStop {s : State} {w : Word} {st : Stop} (run : Instr → State → Result)
    (h : s.opStop (opOf w).toNat = some st) : s.runDecoded run (decode s.cfg w) = s.stop st := by
  unfold decode
  cases hrow : decodeRow s.cfg.fmtW w with
  | none => simp [State.runDecoded, copSpace_gate_eq_opStop s hrow, h]
  | some i =>
    have hstop : s.decodeStop i = some st := (decodeStop_eq_opStop s hrow).trans h
    dsimp only
    split <;> simp [State.runDecoded, hstop]

theorem step_of_opStop {s : State} {w : Word} {st : Stop} (hready : s.ready w)
    (h : s.opStop (opOf w).toNat = some st) : step s = mapNext State.sampleInputs (s.stop st) := by
  rw [step_of_ready hready, runDecoded_of_opStop exec h]

/-- The `op` values of coprocessor `z`, but for the two refused before its test. -/
theorem opStop_of_cop (s : State) {op : Nat} {z : CopNum}
    (h : op = 16 + z.toNat ∨ (z ≠ 0 ∧ (op = 0x30 + z.toNat ∨ op = 0x38 + z.toNat))) :
    s.opStop op = s.gate z := by
  have hz : ∀ z : CopNum, z = 0 ∨ z = 1 ∨ z = 2 ∨ z = 3 := by decide
  rcases hz z with rfl | rfl | rfl | rfl <;> rcases h with rfl | ⟨hne, rfl | rfl⟩ <;>
    first | rfl | exact absurd rfl hne

/-- The test of an unusable coprocessor, where rule R355 does not refuse the word first. -/
theorem gate_of_unusable {s : State} {z : CopNum} (hmodel : ¬(z = 0 ∧ s.cfg.trapModel = .fault))
    (h : ¬usableBy s z) : s.gate z = some (.exc (.coprocessorUnusable z)) :=
  (if_neg hmodel).trans (if_neg (mt usable_iff.1 h))

/-- Settles O7: the report a word's `op` alone decides is the step's. -/
theorem coprocessorTest : Obligations.CoprocessorTest := by
  refine fun s w z hready => ⟨fun ⟨hop, hfault⟩ => ?_, fun hop => ?_, fun hop hmodel hunusable => ?_⟩
  · have hgate : s.gate 0 = some (.refuse .cop0InFaultModel) := if_pos ⟨rfl, hfault⟩
    exact step_of_opStop hready ((opStop_of_cop s (z := 0) (.inl hop)).trans hgate)
  · exact step_of_opStop hready (if_pos hop)
  · exact step_of_opStop hready ((opStop_of_cop s hop).trans (gate_of_unusable hmodel hunusable))

end Sys2Proof.Machine
end

section
/-! The should-be-zero bits: the table of rule R99, and decoding without them (rules R99, R383). -/

namespace Sys2Proof.Machine

/-! ## The table (rule R99) -/

/-- Bits 10:6. -/
def sbzShamt (a b c : Reg) : List Instr :=
  [Instr.add a b c, .addu a b c, .sub a b c, .subu a b c, .and a b c, .or a b c, .xor a b c, .nor a b c,
  .slt a b c, .sltu a b c, .sllv a b c, .srlv a b c, .srav a b c, .cFS a b, .cFD a b, .cUnS a b, .cUnD a b,
  .cEqS a b, .cEqD a b, .cUeqS a b, .cUeqD a b, .cOltS a b, .cOltD a b, .cUltS a b, .cUltD a b, .cOleS a b,
  .cOleD a b, .cUleS a b, .cUleD a b, .cSfS a b, .cSfD a b, .cNgleS a b, .cNgleD a b, .cSeqS a b, .cSeqD a b,
  .cNglS a b, .cNglD a b, .cLtS a b, .cLtD a b, .cNgeS a b, .cNgeD a b, .cLeS a b, .cLeD a b, .cNgtS a b,
  .cNgtD a b]

/-- Bits 15:6. -/
def sbzRdShamt (a b : Reg) : List Instr :=
  [Instr.mult a b, .multu a b, .div a b, .divu a b]

/-- Bits 20:6. -/
def sbzRtRdShamt (a : Reg) : List Instr :=
  [Instr.jr a, .mthi a, .mtlo a]

/-- Bits 25:16 and 10:6. -/
def sbzRsRtShamt (a : Reg) : List Instr :=
  [Instr.mfhi a, .mflo a]

/-- Bits 20:16 and 10:6. -/
def sbzRtShamt (a b : Reg) : List Instr :=
  [Instr.jalr a b]

/-- Bits 25:21. -/
def sbzRs (a : Reg) (imm : BitVec 16) : List Instr :=
  [Instr.lui a imm]

/-- Bits 20:16. -/
def sbzRt (a b : Reg) (imm : BitVec 16) : List Instr :=
  [Instr.blez a imm, .bgtz a imm, .absS a b, .absD a b, .movS a b, .movD a b, .negS a b, .negD a b, .cvtSD a b,
  .cvtSW a b, .cvtDS a b, .cvtDW a b, .cvtWS a b, .cvtWD a b]

/-- Bits 10:0. -/
def sbzLow (a b : Reg) : List Instr :=
  [Instr.mfc0 a b, .cfc0 a b, .mtc0 a b, .ctc0 a b, .mfc1 a b, .cfc1 a b, .mtc1 a b, .ctc1 a b, .mfc2 a b,
  .cfc2 a b, .mtc2 a b, .ctc2 a b, .mfc3 a b, .cfc3 a b, .mtc3 a b, .ctc3 a b]

/-- Bits 20:17. -/
def sbzBranch (imm : BitVec 16) : List Instr :=
  [Instr.bc0f imm, .bc0t imm, .bc1f imm, .bc1t imm, .bc2f imm, .bc2t imm, .bc3f imm, .bc3t imm]

/-- Bits 20:5. -/
def sbzCop0 : List Instr :=
  [Instr.tlbr, .tlbwi, .tlbwr, .tlbp, .rfe]

/-- The row of the table of should-be-zero fields an instruction is in, if it is in one (rule R99). -/
inductive SbzRow (i : Instr) : Prop
  | shamt (a b c : Reg) (h : i ∈ sbzShamt a b c)
  | rdShamt (a b : Reg) (h : i ∈ sbzRdShamt a b)
  | rtRdShamt (a : Reg) (h : i ∈ sbzRtRdShamt a)
  | rsRtShamt (a : Reg) (h : i ∈ sbzRsRtShamt a)
  | rtShamt (a b : Reg) (h : i ∈ sbzRtShamt a b)
  | rs (a : Reg) (imm : BitVec 16) (h : i ∈ sbzRs a imm)
  | rt (a b : Reg) (imm : BitVec 16) (h : i ∈ sbzRt a b imm)
  | low (a b : Reg) (h : i ∈ sbzLow a b)
  | branch (imm : BitVec 16) (h : i ∈ sbzBranch imm)
  | cop0 (h : i ∈ sbzCop0)
  | none (h : i.sbzMask = 0)

theorem sbzRow (i : Instr) : SbzRow i := by
  cases i with
  | add a b c | addu a b c | and a b c | nor a b c | or a b c | sub a b c | subu a b c | xor a b c | slt a b c
  | sltu a b c | sllv a b c | srav a b c | srlv a b c =>
    exact .shamt a b c (by simp [sbzShamt])
  | cFS a b | cFD a b | cUnS a b | cUnD a b | cEqS a b | cEqD a b | cUeqS a b | cUeqD a b | cOltS a b
  | cOltD a b | cUltS a b | cUltD a b | cOleS a b | cOleD a b | cUleS a b | cUleD a b | cSfS a b | cSfD a b
  | cNgleS a b | cNgleD a b | cSeqS a b | cSeqD a b | cNglS a b | cNglD a b | cLtS a b | cLtD a b | cNgeS a b
  | cNgeD a b | cLeS a b | cLeD a b | cNgtS a b | cNgtD a b =>
    exact .shamt a b 0 (by simp [sbzShamt])
  | div a b | divu a b | mult a b | multu a b =>
    exact .rdShamt a b (by simp [sbzRdShamt])
  | jr a | mthi a | mtlo a =>
    exact .rtRdShamt a (by simp [sbzRtRdShamt])
  | mfhi a | mflo a =>
    exact .rsRtShamt a (by simp [sbzRsRtShamt])
  | jalr a b =>
    exact .rtShamt a b (by simp [sbzRtShamt])
  | lui a imm =>
    exact .rs a imm (by simp [sbzRs])
  | blez a imm | bgtz a imm =>
    exact .rt a 0 imm (by simp [sbzRt])
  | absD a b | absS a b | cvtDS a b | cvtDW a b | cvtSD a b | cvtSW a b | cvtWD a b | cvtWS a b | movD a b
  | movS a b | negD a b | negS a b =>
    exact .rt a b 0 (by simp [sbzRt])
  | mfc0 a b | cfc0 a b | mtc0 a b | ctc0 a b | mfc1 a b | cfc1 a b | mtc1 a b | ctc1 a b | mfc2 a b | cfc2 a b
  | mtc2 a b | ctc2 a b | mfc3 a b | cfc3 a b | mtc3 a b | ctc3 a b =>
    exact .low a b (by simp [sbzLow])
  | bc0f imm | bc0t imm | bc1f imm | bc1t imm | bc2f imm | bc2t imm | bc3f imm | bc3t imm =>
    exact .branch imm (by simp [sbzBranch])
  | tlbr | tlbwi | tlbwr | tlbp | rfe =>
    exact .cop0 (by simp [sbzCop0])
  | _ => exact .none rfl

section
variable {i : Instr} {a b c : Reg} {imm : BitVec 16} {k : Nat}

theorem sbzMask_of_mem {l : List Instr} {m : Word} (hl : l.map Instr.sbzMask = List.replicate l.length m)
    (h : i ∈ l) : i.sbzMask = m :=
  List.eq_of_mem_replicate (hl ▸ List.mem_map_of_mem h)

theorem sbzShamt_bits (h : i ∈ sbzShamt a b c) (hk : k < 32) :
    i.sbzMask.getLsbD k = true ↔ 6 ≤ k ∧ k ≤ 10 := by
  rw [sbzMask_of_mem (m := 0x7C0) rfl h]
  revert k; decide

theorem sbzRdShamt_bits (h : i ∈ sbzRdShamt a b) (hk : k < 32) :
    i.sbzMask.getLsbD k = true ↔ 6 ≤ k ∧ k ≤ 15 := by
  rw [sbzMask_of_mem (m := 0xFFC0) rfl h]
  revert k; decide

theorem sbzRtRdShamt_bits (h : i ∈ sbzRtRdShamt a) (hk : k < 32) :
    i.sbzMask.getLsbD k = true ↔ 6 ≤ k ∧ k ≤ 20 := by
  rw [sbzMask_of_mem (m := 0x1FFFC0) rfl h]
  revert k; decide

theorem sbzRsRtShamt_bits (h : i ∈ sbzRsRtShamt a) (hk : k < 32) :
    i.sbzMask.getLsbD k = true ↔ 16 ≤ k ∧ k ≤ 25 ∨ 6 ≤ k ∧ k ≤ 10 := by
  rw [sbzMask_of_mem (m := 0x3FF07C0) rfl h]
  revert k; decide

theorem sbzRtShamt_bits (h : i ∈ sbzRtShamt a b) (hk : k < 32) :
    i.sbzMask.getLsbD k = true ↔ 16 ≤ k ∧ k ≤ 20 ∨ 6 ≤ k ∧ k ≤ 10 := by
  rw [sbzMask_of_mem (m := 0x1F07C0) rfl h]
  revert k; decide

theorem sbzRs_bits (h : i ∈ sbzRs a imm) (hk : k < 32) :
    i.sbzMask.getLsbD k = true ↔ 21 ≤ k ∧ k ≤ 25 := by
  rw [sbzMask_of_mem (m := 0x3E00000) rfl h]
  revert k; decide

theorem sbzRt_bits (h : i ∈ sbzRt a b imm) (hk : k < 32) :
    i.sbzMask.getLsbD k = true ↔ 16 ≤ k ∧ k ≤ 20 := by
  rw [sbzMask_of_mem (m := 0x1F0000) rfl h]
  revert k; decide

theorem sbzLow_bits (h : i ∈ sbzLow a b) (hk : k < 32) :
    i.sbzMask.getLsbD k = true ↔ k ≤ 10 := by
  rw [sbzMask_of_mem (m := 0x7FF) rfl h]
  revert k; decide

theorem sbzBranch_bits (h : i ∈ sbzBranch imm) (hk : k < 32) :
    i.sbzMask.getLsbD k = true ↔ 17 ≤ k ∧ k ≤ 20 := by
  rw [sbzMask_of_mem (m := 0x1E0000) rfl h]
  revert k; decide

theorem sbzCop0_bits (h : i ∈ sbzCop0) (hk : k < 32) :
    i.sbzMask.getLsbD k = true ↔ 5 ≤ k ∧ k ≤ 20 := by
  rw [sbzMask_of_mem (m := 0x1FFFE0) rfl h]
  revert k; decide

end

theorem sbzMask_bits (i : Instr) {k : Nat} (hk : k < 32) : i.sbzMask.getLsbD k = true ↔
    ∃ (a b c : Reg) (imm : BitVec 16),
      (6 ≤ k ∧ k ≤ 10 ∧ i ∈ sbzShamt a b c) ∨
      (6 ≤ k ∧ k ≤ 15 ∧ i ∈ sbzRdShamt a b) ∨
      (6 ≤ k ∧ k ≤ 20 ∧ i ∈ sbzRtRdShamt a) ∨
      ((16 ≤ k ∧ k ≤ 25 ∨ 6 ≤ k ∧ k ≤ 10) ∧ i ∈ sbzRsRtShamt a) ∨
      ((16 ≤ k ∧ k ≤ 20 ∨ 6 ≤ k ∧ k ≤ 10) ∧ i ∈ sbzRtShamt a b) ∨
      (21 ≤ k ∧ k ≤ 25 ∧ i ∈ sbzRs a imm) ∨
      (16 ≤ k ∧ k ≤ 20 ∧ i ∈ sbzRt a b imm) ∨
      (k ≤ 10 ∧ i ∈ sbzLow a b) ∨
      (17 ≤ k ∧ k ≤ 20 ∧ i ∈ sbzBranch imm) ∨
      (5 ≤ k ∧ k ≤ 20 ∧ i ∈ sbzCop0) := by
  constructor
  · intro hbit
    cases sbzRow i with
    | shamt a b c h =>
      obtain ⟨h₁, h₂⟩ := (sbzShamt_bits h hk).1 hbit
      exact ⟨a, b, c, 0, .inl ⟨h₁, h₂, h⟩⟩
    | rdShamt a b h =>
      obtain ⟨h₁, h₂⟩ := (sbzRdShamt_bits h hk).1 hbit
      exact ⟨a, b, 0, 0, .inr (.inl ⟨h₁, h₂, h⟩)⟩
    | rtRdShamt a h =>
      obtain ⟨h₁, h₂⟩ := (sbzRtRdShamt_bits h hk).1 hbit
      exact ⟨a, 0, 0, 0, .inr (.inr (.inl ⟨h₁, h₂, h⟩))⟩
    | rsRtShamt a h =>
      have hr := (sbzRsRtShamt_bits h hk).1 hbit
      exact ⟨a, 0, 0, 0, .inr (.inr (.inr (.inl ⟨hr, h⟩)))⟩
    | rtShamt a b h =>
      have hr := (sbzRtShamt_bits h hk).1 hbit
      exact ⟨a, b, 0, 0, .inr (.inr (.inr (.inr (.inl ⟨hr, h⟩))))⟩
    | rs a imm h =>
      obtain ⟨h₁, h₂⟩ := (sbzRs_bits h hk).1 hbit
      exact ⟨a, 0, 0, imm, .inr (.inr (.inr (.inr (.inr (.inl ⟨h₁, h₂, h⟩)))))⟩
    | rt a b imm h =>
      obtain ⟨h₁, h₂⟩ := (sbzRt_bits h hk).1 hbit
      exact ⟨a, b, 0, imm, .inr (.inr (.inr (.inr (.inr (.inr (.inl ⟨h₁, h₂, h⟩))))))⟩
    | low a b h =>
      have hr := (sbzLow_bits h hk).1 hbit
      exact ⟨a, b, 0, 0, .inr (.inr (.inr (.inr (.inr (.inr (.inr (.inl ⟨hr, h⟩)))))))⟩
    | branch imm h =>
      obtain ⟨h₁, h₂⟩ := (sbzBranch_bits h hk).1 hbit
      exact ⟨0, 0, 0, imm, .inr (.inr (.inr (.inr (.inr (.inr (.inr (.inr (.inl ⟨h₁, h₂, h⟩))))))))⟩
    | cop0 h =>
      obtain ⟨h₁, h₂⟩ := (sbzCop0_bits h hk).1 hbit
      exact ⟨0, 0, 0, 0, .inr (.inr (.inr (.inr (.inr (.inr (.inr (.inr (.inr ⟨h₁, h₂, h⟩))))))))⟩
    | none h => simp [h] at hbit
  · rintro ⟨a, b, c, imm, ⟨h₁, h₂, h⟩ | ⟨h₁, h₂, h⟩ | ⟨h₁, h₂, h⟩ | ⟨hr, h⟩ | ⟨hr, h⟩ |
      ⟨h₁, h₂, h⟩ | ⟨h₁, h₂, h⟩ | ⟨hr, h⟩ | ⟨h₁, h₂, h⟩ | ⟨h₁, h₂, h⟩⟩
    · exact (sbzShamt_bits h hk).2 ⟨h₁, h₂⟩
    · exact (sbzRdShamt_bits h hk).2 ⟨h₁, h₂⟩
    · exact (sbzRtRdShamt_bits h hk).2 ⟨h₁, h₂⟩
    · exact (sbzRsRtShamt_bits h hk).2 hr
    · exact (sbzRtShamt_bits h hk).2 hr
    · exact (sbzRs_bits h hk).2 ⟨h₁, h₂⟩
    · exact (sbzRt_bits h hk).2 ⟨h₁, h₂⟩
    · exact (sbzLow_bits h hk).2 hr
    · exact (sbzBranch_bits h hk).2 ⟨h₁, h₂⟩
    · exact (sbzCop0_bits h hk).2 ⟨h₁, h₂⟩

/-! ## Decoding without the bits that should be zero -/

/-- Only a word whose `rs` is a free value of `FMT_W` is decoded by it. -/
theorem decodeRow_of_fmtW {f g : BitVec 5} {w : Word} {i : Instr} (hne : rsOf w = f → ¬Config.fmtWFree f)
    (h : decodeRow f w = some i) : decodeRow g w = some i := by
  have hcop : decodeCop1 f w = some i → decodeCop1 g w = some i := by
    unfold decodeCop1
    split
    -- the row of `FMT_W`
    case h_8 =>
      simp only [imp_false] at *
      have hfree : Config.fmtWFree (rsOf w) := by simp [Config.fmtWFree, ← BitVec.toNat_inj, *]
      rw [if_neg fun hrs => hne hrs (hrs ▸ hfree)]
      exact nofun
    all_goals exact id
  revert h
  unfold decodeRow
  split
  -- op = 17
  case h_18 => exact hcop
  all_goals exact id

theorem exists_fmtWFree_ne (rs : Reg) : ∃ g : BitVec 5, Config.fmtWFree g ∧ rs ≠ g := by
  revert rs; decide

theorem decodeRow_clear_unread {f : BitVec 5} {w : Word} {i : Instr} (h : decodeRow f w = some i)
    (hmask : i.unreadMask = i.sbzMask) : decodeRow f (w &&& ~~~i.sbzMask) = some i := by
  by_cases hfree : Config.fmtWFree f
  · rw [← hmask, ← encode_of_decodeRow h]
    exact (Laws.RoundTrip.statement_all i f hfree).1
  · obtain ⟨g, hg, hne⟩ := exists_fmtWFree_ne (rsOf (w &&& ~~~i.sbzMask))
    refine decodeRow_of_fmtW (f := g) (fun h => absurd h hne) ?_
    rw [← hmask, ← encode_of_decodeRow (decodeRow_of_fmtW (fun _ => hfree) h)]
    exact (Laws.RoundTrip.statement_all i g hg).1

/-- The bits that should be zero do not decide what a word decodes to. -/
theorem decodeRow_clear_sbz {f : BitVec 5} {w : Word} {i : Instr} (h : decodeRow f w = some i) :
    decodeRow f (w &&& ~~~i.sbzMask) = some i := by
  rcases unreadMask_cases i with ⟨⟨_, _, _, hshift⟩, _⟩ | hmask
  · have hzero : i.sbzMask = 0 := by rcases hshift with rfl | rfl | rfl <;> rfl
    rw [hzero, and_not_zero]
    exact h
  · exact decodeRow_clear_unread h hmask

/-- Settles O6: the table bit by bit, both policies, and the refusal once the coprocessor's test has passed. -/
theorem shouldBeZero : Obligations.ShouldBeZero := by
  refine ⟨fun i k hk => sbzMask_bits i hk, fun c w i hpolicy => (decode_of_ignore hpolicy).2,
    fun c w i hpolicy => ⟨decode_ne_nonZeroSbz_of_ignore hpolicy w i, fun hdec => ?_⟩,
    fun s w i hpolicy hrow hbits hready hstop => ?_⟩
  · have hrow := (decode_of_ignore hpolicy).1 hdec
    exact ⟨(decode_of_ignore hpolicy).2 (decodeRow_clear_sbz hrow), decode_of_refuse rfl hrow⟩
  · rw [step_of_ready hready, decode_of_refuse hpolicy hrow, if_neg hbits]
    simp [State.runDecoded, hstop]

end Sys2Proof.Machine
end

section
/-! Arithmetic, logic and shifts (`40_arith_logic.md`, rules R120 to R128, R140 to R157, R171): the instructions that
write one general register, and signed overflow. -/

namespace Sys2Proof.Machine

/-! ## Writing one general register -/

theorem State.holds.of_ne_zero {t : State} {r : Reg} {v : Word} (h : t.holds r v) (hr : r ≠ 0) : t.x r = v :=
  Eq.trans h (if_neg hr)

/-- An instruction that answers `finishX` completes with the register written. -/
theorem exec_writes {s : State} {i : Instr} {rd : Reg} {v : Word} (hi : exec i s = s.finishX rd v) :
    ∃ t, exec i s = .next t ∧ After s t {} ∧ Frame s t [.gpr rd] ∧ t.holds rd v := by
  refine ⟨_, hi, after_complete _ ?_ ?_ ?_ ?_ ?_ ?_ ?_, frame_complete (frame_setX s rd v) _, ?_⟩ <;>
    simp [State.holds, x_setX]

/-- `exec_writes` where the rule gives the value by another expression. -/
theorem exec_writes_eq {s : State} {i : Instr} {rd : Reg} {v w : Word} (hi : exec i s = s.finishX rd v)
    (hv : v = w) : ∃ t, exec i s = .next t ∧ After s t {} ∧ Frame s t [.gpr rd] ∧ t.holds rd w :=
  exec_writes (hi.trans (congrArg _ hv))

/-- `exec_writes` where the rule gives a property of the value: it holds of the register, unless the write was
discarded. -/
theorem exec_writes_that {s : State} {i : Instr} {rd : Reg} {v : Word} {P : Word → Prop}
    (hi : exec i s = s.finishX rd v) (hv : P v) :
    ∃ t, exec i s = .next t ∧ After s t {} ∧ Frame s t [.gpr rd] ∧ (rd ≠ 0 → P (t.x rd)) := by
  obtain ⟨t, ht, hafter, hframe, hholds⟩ := exec_writes hi
  exact ⟨t, ht, hafter, hframe, fun hrd => (hholds.of_ne_zero hrd).symm ▸ hv⟩

/-- Such an instruction leaves the run's outcome as it was, so it raises nothing. -/
theorem exec_writes_outcome {s : State} {i : Instr} {rd : Reg} {v : Word} (hi : exec i s = s.finishX rd v) :
    ∃ t, exec i s = .next t ∧ t.outcome = s.outcome ∧ t.holds rd v := by
  obtain ⟨t, ht, _, hframe, hholds⟩ := exec_writes hi
  exact ⟨t, ht, hframe .outcome (by simp), hholds⟩

/-! ## Signed overflow (rule R120) -/

theorem outsideSigned32_iff (v : Int) : outsideSigned32 v = true ↔ v < -2147483648 ∨ 2147483647 < v := by
  simp [outsideSigned32]

theorem outsideSigned32_of_between {v : Int} (hlo : -2147483648 ≤ v) (hhi : v ≤ 2147483647) :
    ¬outsideSigned32 v = true := by
  rw [outsideSigned32_iff]; omega

theorem addOverflows_eq_saddOverflow (a b : Word) : addOverflows a b = BitVec.saddOverflow a b := by
  rw [Bool.eq_iff_iff, addOverflows, outsideSigned32_iff]
  simp only [BitVec.saddOverflow, Bool.or_eq_true, decide_eq_true_eq]
  omega

theorem subOverflows_eq_ssubOverflow (a b : Word) : subOverflows a b = BitVec.ssubOverflow a b := by
  rw [Bool.eq_iff_iff, subOverflows, outsideSigned32_iff]
  simp only [BitVec.ssubOverflow, Bool.or_eq_true, decide_eq_true_eq]
  omega

/-- A sum overflows where both terms have one sign and the sum the other. -/
theorem addOverflows_iff_msb (a b : Word) :
    addOverflows a b = true ↔ a.msb = b.msb ∧ (a + b).msb ≠ a.msb := by
  rw [addOverflows_eq_saddOverflow, BitVec.saddOverflow_eq]
  simp

/-- A difference overflows where the operands differ in sign and the difference has not the first one's. -/
theorem subOverflows_iff_msb (a b : Word) :
    subOverflows a b = true ↔ a.msb ≠ b.msb ∧ (a - b).msb ≠ a.msb := by
  rw [subOverflows_eq_ssubOverflow, BitVec.ssubOverflow_eq]
  cases a.msb <;> cases b.msb <;> simp

theorem toInt_add_of_not_overflows {a b : Word} (h : ¬addOverflows a b = true) :
    (a + b).toInt = a.toInt + b.toInt :=
  BitVec.toInt_add_of_not_saddOverflow (addOverflows_eq_saddOverflow a b ▸ h)

theorem toInt_sub_of_not_overflows {a b : Word} (h : ¬subOverflows a b = true) :
    (a - b).toInt = a.toInt - b.toInt :=
  BitVec.toInt_sub_of_not_ssubOverflow (subOverflows_eq_ssubOverflow a b ▸ h)

theorem toInt_sext (imm : BitVec 16) : (sext imm).toInt = imm.toInt := BitVec.toInt_signExtend_of_le (by decide)

/-- An exception leaves the general registers alone. -/
theorem x_of_raise {s t : State} {e : Exc} (h : s.raise e = .next t) (r : Reg) : t.x r = s.x r := by
  rw [raise_eq] at h
  cases h
  cases s.cfg.trapModel with
  | fault => rfl
  | mips1 => exact trapEntry_x s e r

/-! The trapping instructions: `Overflow`, or what the instruction without the trap does. -/

theorem exec_add (rd rs rt : Reg) (s : State) : exec (.add rd rs rt) s =
    if addOverflows (s.x rs) (s.x rt) then s.raise .overflow else exec (.addu rd rs rt) s := rfl

theorem exec_addi (rt rs : Reg) (imm : BitVec 16) (s : State) : exec (.addi rt rs imm) s =
    if addOverflows (s.x rs) (sext imm) then s.raise .overflow else exec (.addiu rt rs imm) s := rfl

theorem exec_sub (rd rs rt : Reg) (s : State) : exec (.sub rd rs rt) s =
    if subOverflows (s.x rs) (s.x rt) then s.raise .overflow else exec (.subu rd rs rt) s := rfl

/-- A trapping instruction by any condition equivalent to its overflow. -/
theorem raises_or_same {c : Bool} {p : Prop} [Decidable p] {r raised same : Result}
    (hr : r = if c then raised else same) (hp : c = true ↔ p) : if p then r = raised else r = same := by
  subst hr
  split
  · next h => exact if_pos (hp.2 h)
  · next h => exact if_neg fun hc => h (hp.1 hc)

/-- Settles O10: overflow by the signs, and the two ends of each trapping instruction. -/
theorem overflowDefinition : Obligations.OverflowDefinition := by
  refine ⟨fun a b => ⟨?_, ?_⟩, fun s rd rs rt imm => ⟨?_, ?_, ?_, fun t r h => x_of_raise h r,
    exec_writes_outcome rfl, exec_writes_outcome rfl, exec_writes_outcome rfl⟩⟩
  · rw [← outsideSigned32_iff]; exact addOverflows_iff_msb a b
  · rw [← outsideSigned32_iff]; exact subOverflows_iff_msb a b
  · exact raises_or_same (exec_add rd rs rt s) (addOverflows_iff_msb _ _)
  · exact raises_or_same (exec_addi rt rs imm s) (addOverflows_iff_msb _ _)
  · exact raises_or_same (exec_sub rd rs rt s) (subOverflows_iff_msb _ _)

/-- Settles O11: within the signed range the integers' result is written, outside it `Overflow` is raised. -/
theorem trappingArithmetic : Obligations.TrappingArithmetic := by
  intro s f rd rs rt imm
  simp only [← toInt_sext imm]
  refine ⟨rfl, rfl, rfl, fun hlo hhi => ?_, fun h => ?_, fun hlo hhi => ?_, fun h => ?_, fun hlo hhi => ?_,
    fun h => ?_⟩
  · have hno : ¬addOverflows (s.x rs) (s.x rt) = true := outsideSigned32_of_between hlo hhi
    exact exec_writes_that (P := fun v => v.toInt = _) (if_neg hno) (toInt_add_of_not_overflows hno)
  · exact if_pos ((outsideSigned32_iff _).2 h)
  · have hno : ¬addOverflows (s.x rs) (sext imm) = true := outsideSigned32_of_between hlo hhi
    exact exec_writes_that (P := fun v => v.toInt = _) (if_neg hno) (toInt_add_of_not_overflows hno)
  · exact if_pos ((outsideSigned32_iff _).2 h)
  · have hno : ¬subOverflows (s.x rs) (s.x rt) = true := outsideSigned32_of_between hlo hhi
    exact exec_writes_that (P := fun v => v.toInt = _) (if_neg hno) (toInt_sub_of_not_overflows hno)
  · exact if_pos ((outsideSigned32_iff _).2 h)

/-! ## Arithmetic modulo 2^32 (rules R124, R126, R155) -/

theorem add_eq_ofNat (a b : Word) : a + b = BitVec.ofNat 32 (a.toNat + b.toNat) := by
  rw [BitVec.ofNat_add, BitVec.ofNat_toNat, BitVec.ofNat_toNat, BitVec.setWidth_eq, BitVec.setWidth_eq]

theorem add_eq_ofInt (a b : Word) : a + b = BitVec.ofInt 32 (a.toInt + b.toInt) := by
  rw [BitVec.ofInt_add, BitVec.ofInt_toInt, BitVec.ofInt_toInt]

theorem sub_eq_ofInt (a b : Word) : a - b = BitVec.ofInt 32 (a.toInt - b.toInt) :=
  BitVec.eq_of_toInt_eq (by simp)

/-- Settles O12: each writes its result modulo 2^32. -/
theorem wrappingArithmetic : Obligations.WrappingArithmetic := by
  intro s f rd rs rt imm
  refine ⟨rfl, rfl, rfl, exec_writes_eq rfl (add_eq_ofNat _ _), ?_, exec_writes_eq rfl (sub_eq_ofInt _ _)⟩
  rw [← toInt_sext imm]
  exact exec_writes_eq rfl (add_eq_ofInt _ _)

/-! ## Bitwise logic (rules R127, R128, R140, R142, R143, R156, R157) -/

theorem getLsbD_zext (imm : BitVec 16) {k : Nat} (hk : k < 32) :
    (zext imm).getLsbD k = (decide (k < 16) && imm.getLsbD k) := by
  by_cases h : k < 16
  · simp [zext, hk, h]
  · simp [zext, h, BitVec.getLsbD_of_ge imm k (by omega)]

/-- An instruction whose value the rule gives bit by bit. -/
theorem exec_writes_bits {s : State} {i : Instr} {rd : Reg} {v : Word} {b : Nat → Bool}
    (hi : exec i s = s.finishX rd v) (hv : ∀ k < 32, v.getLsbD k = b k) :
    ∃ t, exec i s = .next t ∧ After s t {} ∧ Frame s t [.gpr rd] ∧
      (rd ≠ 0 → ∀ k < 32, (t.x rd).getLsbD k = b k) :=
  exec_writes_that (P := fun v => ∀ k < 32, v.getLsbD k = b k) hi hv

/-- Settles O13: each result bit by bit. -/
theorem bitwiseLogic : Obligations.BitwiseLogic := by
  intro s f rd rs rt imm
  refine ⟨rfl, rfl, rfl, rfl, rfl, rfl, rfl, exec_writes_bits rfl fun k hk => ?_,
    exec_writes_bits rfl fun k hk => ?_, exec_writes_bits rfl fun k hk => ?_, exec_writes_bits rfl fun k hk => ?_,
    exec_writes_bits rfl fun k hk => ?_, exec_writes_bits rfl fun k hk => ?_, exec_writes_bits rfl fun k hk => ?_⟩
  · exact BitVec.getLsbD_and
  · exact BitVec.getLsbD_or
  · exact BitVec.getLsbD_xor
  · simp [hk]
  · rw [BitVec.getLsbD_and, getLsbD_zext imm hk, ← Bool.and_assoc, Bool.and_comm _ (decide _)]
  · rw [BitVec.getLsbD_or, getLsbD_zext imm hk]
  · rw [← getLsbD_zext imm hk]; exact BitVec.getLsbD_xor

/-! ## Shifts (rules R146 to R151, R171) -/

theorem shiftLeft_eq_ofNat (a : Word) (n : Nat) : a <<< n = BitVec.ofNat 32 (a.toNat * 2 ^ n) :=
  BitVec.eq_of_toNat_eq (by rw [BitVec.toNat_shiftLeft, Nat.shiftLeft_eq, BitVec.toNat_ofNat])

theorem ushiftRight_eq_ofNat (a : Word) (n : Nat) : a >>> n = BitVec.ofNat 32 (a.toNat / 2 ^ n) := by
  rw [← Nat.shiftRight_eq_div_pow, ← BitVec.toNat_ushiftRight, BitVec.ofNat_toNat, BitVec.setWidth_eq]

/-- An arithmetic right shift divides the signed value, rounding down. -/
theorem sshiftRight_eq_ofInt (a : Word) (n : Nat) :
    a.sshiftRight n = BitVec.ofInt 32 (a.toInt.fdiv (2 ^ n)) := by
  have hdiv : (a.sshiftRight n).toInt = a.toInt.fdiv (2 ^ n) := by
    rw [BitVec.toInt_sshiftRight, Int.shiftRight_eq_div_pow, Int.fdiv_eq_ediv_of_nonneg _ (by positivity),
      Nat.cast_pow, Nat.cast_ofNat]
  rw [← hdiv, BitVec.ofInt_toInt]

theorem shiftDistance_eq_mod (v : Word) : shiftDistance v = v.toNat % 32 := by simp [shiftDistance]

theorem upper_eq_ofNat (imm : BitVec 16) : upper imm = BitVec.ofNat 32 (imm.toNat * 65536) := by
  have hlt := imm.isLt
  refine BitVec.eq_of_toNat_eq ?_
  rw [upper, BitVec.toNat_append, BitVec.toNat_ofNat, Nat.shiftLeft_eq]
  simp only [BitVec.toNat_ofNat, Nat.zero_mod, Nat.or_zero]
  omega

/-- Settles O14: each shift by the arithmetic it does, a variable distance by its low five bits. -/
theorem shifts : Obligations.Shifts := by
  intro s rd rs rt shamt imm
  rw [← shiftDistance_eq_mod]
  exact ⟨exec_writes_eq rfl (upper_eq_ofNat _), exec_writes_eq rfl (shiftLeft_eq_ofNat _ _),
    exec_writes_eq rfl (ushiftRight_eq_ofNat _ _), exec_writes_eq rfl (sshiftRight_eq_ofInt _ _),
    exec_writes_eq rfl (shiftLeft_eq_ofNat _ _), exec_writes_eq rfl (ushiftRight_eq_ofNat _ _),
    exec_writes_eq rfl (sshiftRight_eq_ofInt _ _)⟩

end Sys2Proof.Machine
end

section
/-! Multiplication and division (`40_arith_logic.md`, rules R121, R129, R130, R133, R134). -/

namespace Sys2Proof.Machine

/-! ## Writing `hi` and `lo` -/

theorem frame_hiLo (s : State) (hi lo : Word) : Frame s { s with hi := hi, lo := lo } [.hi, .lo] := by
  intro p hp
  cases p with
  | hi | lo => simp at hp
  | _ => rfl

/-- An instruction that answers `finishHiLo` completes with `hi` and `lo` written. -/
theorem exec_writes_hiLo {s : State} {i : Instr} {hi lo : Word} {Q : Word → Word → Prop}
    (hexec : exec i s = s.finishHiLo hi lo) (hQ : Q hi lo) :
    ∃ t, exec i s = .next t ∧ After s t {} ∧ Frame s t [.hi, .lo] ∧ Q t.hi t.lo :=
  ⟨_, hexec, after_complete _ rfl rfl rfl rfl rfl rfl rfl, frame_complete (frame_hiLo s hi lo) _, by simpa using hQ⟩

/-! ## Multiplication (rules R133, R134) -/

/-- The word of layout `R` with `rd` and the shift amount 0, as its ten zero bits. -/
theorem packR_zero_rd_sh_append (op : BitVec 6) (rs rt : Reg) (fn : BitVec 6) :
    packR op rs rt 0 0 fn = op ++ rs ++ rt ++ 0x000#10 ++ fn := by
  have hzeros : (op ++ rs ++ rt ++ 0#5 ++ 0#5 : BitVec 26) = op ++ rs ++ rt ++ 0#10 := BitVec.append_assoc
  exact congrArg (· ++ fn) hzeros

theorem halves_append (p : DWord) : p.extractLsb' 32 32 ++ p.extractLsb' 0 32 = p :=
  (BitVec.extractLsb'_append_extractLsb'_eq_extractLsb' (start₁ := 0) (len₁ := 32) rfl).trans
    BitVec.extractLsb'_eq_self

theorem toInt_halves (p : DWord) :
    (p.extractLsb' 32 32).toInt * 4294967296 + (p.extractLsb' 0 32).toNat = p.toInt := by
  conv_rhs => rw [← halves_append p, BitVec.toInt_append]
  simp [Int.mul_comm]

theorem toNat_halves (p : DWord) :
    (p.extractLsb' 32 32).toNat * 4294967296 + (p.extractLsb' 0 32).toNat = p.toNat := by
  rw [BitVec.extractLsb'_toNat, BitVec.extractLsb'_toNat]
  omega

/-- A signed product of words fits in 64 bits. -/
theorem toInt_ofInt_mul (a b : Word) : (BitVec.ofInt 64 (a.toInt * b.toInt)).toInt = a.toInt * b.toInt := by
  have hlo := BitVec.le_toInt_mul_toInt (x := a) (y := b)
  have hhi := BitVec.toInt_mul_toInt_le (x := a) (y := b)
  exact BitVec.toInt_ofInt_eq_self (by decide) (by omega) (by omega)

/-- An unsigned product of words fits in 64 bits. -/
theorem toNat_ofNat_mul (a b : Word) : (BitVec.ofNat 64 (a.toNat * b.toNat)).toNat = a.toNat * b.toNat := by
  rw [BitVec.toNat_ofNat]
  exact Nat.mod_eq_of_lt BitVec.toNat_mul_toNat_lt

/-- Settles O16: the halves of a product that fits in 64 bits. -/
theorem multiply : Obligations.Multiply := by
  intro s f rs rt
  refine ⟨packR_zero_rd_sh_append _ _ _ _, packR_zero_rd_sh_append _ _ _ _, ?_, ?_⟩
  · exact exec_writes_hiLo (Q := fun hi lo => hi.toInt * 4294967296 + lo.toNat = _) rfl
      ((toInt_halves _).trans (toInt_ofInt_mul _ _))
  · exact exec_writes_hiLo (Q := fun hi lo => hi.toNat * 4294967296 + lo.toNat = _) rfl
      ((toNat_halves _).trans (toNat_ofNat_mul _ _))

/-! ## The signed quotient and its remainder (rule R121) -/

theorem natAbs_signedQuotient_le (c : SdivConvention) (a b : Int) :
    (signedQuotient c a b).natAbs ≤ a.natAbs := by
  cases c with
  | truncate => exact Int.natAbs_tdiv_le_natAbs a b
  | floor => exact Int.natAbs_fdiv_le_natAbs a b

theorem truncate_remainder (a b : Int) : a - signedQuotient .truncate a b * b = a.tmod b := by
  rw [Int.tmod_def, Int.mul_comm]; rfl

theorem floor_remainder (a b : Int) : a - signedQuotient .floor a b * b = a.fmod b := by
  rw [Int.fmod_def, Int.mul_comm]; rfl

/-- The remainder of rounding towards zero is 0 or has the dividend's sign. -/
theorem tmod_sign (a b : Int) : a.tmod b = 0 ∨ (a.tmod b < 0 ↔ a < 0) := by
  rcases Int.lt_or_le a 0 with ha | ha
  · have hneg : 0 ≤ (-a).tmod b := Int.tmod_nonneg b (by omega)
    rw [Int.neg_tmod] at hneg
    omega
  · have hpos := Int.tmod_nonneg b ha
    omega

theorem fmod_range_of_neg (a : Int) {b : Int} (hb : b < 0) : b < a.fmod b ∧ a.fmod b ≤ 0 := by
  have hneg := Int.neg_fmod_neg a b
  have h0 := Int.fmod_nonneg_of_pos (-a) (show 0 < -b by omega)
  have h1 := Int.fmod_lt_of_pos (-a) (show 0 < -b by omega)
  omega

/-- The remainder of rounding down is 0 or has the divisor's sign. -/
theorem fmod_sign (a : Int) {b : Int} (hb : b ≠ 0) : a.fmod b = 0 ∨ (a.fmod b < 0 ↔ b < 0) := by
  rcases Int.lt_or_gt_of_ne hb with hneg | hpos
  · have := fmod_range_of_neg a hneg
    omega
  · have := Int.fmod_nonneg_of_pos a hpos
    omega

theorem abs_remainder_lt (c : SdivConvention) (a : Int) {b : Int} (hb : b ≠ 0) :
    |a - signedQuotient c a b * b| < |b| := by
  cases c with
  | truncate =>
    rw [truncate_remainder, Int.abs_eq_natAbs, Int.abs_eq_natAbs, Int.natAbs_tmod]
    exact_mod_cast Nat.mod_lt _ (Int.natAbs_pos.2 hb)
  | floor =>
    rw [floor_remainder, abs_lt]
    rcases Int.lt_or_gt_of_ne hb with hneg | hpos
    · have := fmod_range_of_neg a hneg
      rw [abs_of_neg hneg]; omega
    · have h0 := Int.fmod_nonneg_of_pos a hpos
      have h1 := Int.fmod_lt_of_pos a hpos
      rw [abs_of_pos hpos]; omega

/-- The quotient of words is a word, but for -2^31 / -1: a quotient of 2^31 asks for a dividend as large. -/
theorem signedQuotient_range (c : SdivConvention) {a b : Int} (hlo : -2147483648 ≤ a) (hhi : a < 2147483648)
    (hb : b ≠ 0) (hmin : ¬(a = -2147483648 ∧ b = -1)) :
    -2147483648 ≤ signedQuotient c a b ∧ signedQuotient c a b < 2147483648 := by
  have habs := natAbs_signedQuotient_le c a b
  have hrem := abs_remainder_lt c a hb
  generalize signedQuotient c a b = q at *
  have hne : q ≠ 2147483648 := by
    rintro rfl
    rw [Int.abs_eq_natAbs, Int.abs_eq_natAbs] at hrem
    omega
  omega

/-! ## Division (rules R129, R130) -/

theorem word_toInt_range (a : Word) : -2147483648 ≤ a.toInt ∧ a.toInt < 2147483648 :=
  ⟨BitVec.le_toInt a, BitVec.toInt_lt⟩

theorem toInt_ofInt_of_range {v : Int} (hlo : -2147483648 ≤ v) (hhi : v < 2147483648) :
    (BitVec.ofInt 32 v).toInt = v := BitVec.toInt_ofInt_eq_self (by decide) hlo hhi

theorem eq_zero_iff_toInt (a : Word) : a = 0 ↔ a.toInt = 0 := BitVec.toInt_inj.symm

theorem toInt_ne_zero {a : Word} (h : a ≠ 0) : a.toInt ≠ 0 := mt (eq_zero_iff_toInt a).2 h

theorem toInt_ofInt_remainder (c : SdivConvention) (a : Int) {b : Word} (hb : b ≠ 0) :
    (BitVec.ofInt 32 (a - signedQuotient c a b.toInt * b.toInt)).toInt =
      a - signedQuotient c a b.toInt * b.toInt := by
  have hrem := abs_remainder_lt c a (toInt_ne_zero hb)
  have hrange := word_toInt_range b
  rw [Int.abs_eq_natAbs, Int.abs_eq_natAbs] at hrem
  exact toInt_ofInt_of_range (by omega) (by omega)

theorem exec_div_of_ne {s : State} {rs rt : Reg} (h : s.x rt ≠ 0) : exec (.div rs rt) s =
    s.finishHiLo
      (BitVec.ofInt 32 ((s.x rs).toInt -
        signedQuotient s.cfg.sdiv (s.x rs).toInt (s.x rt).toInt * (s.x rt).toInt))
      (BitVec.ofInt 32 (signedQuotient s.cfg.sdiv (s.x rs).toInt (s.x rt).toInt)) := if_neg h

theorem exec_divu_of_ne {s : State} {rs rt : Reg} (h : s.x rt ≠ 0) : exec (.divu rs rt) s =
    s.finishHiLo
      (BitVec.ofNat 32 ((s.x rs).toNat - (s.x rs).toNat / (s.x rt).toNat * (s.x rt).toNat))
      (BitVec.ofNat 32 ((s.x rs).toNat / (s.x rt).toNat)) := if_neg h

/-- What `div` leaves in `hi` and `lo` for a non-zero divisor. -/
def IsSignedDivision (c : SdivConvention) (a b hi lo : Word) : Prop :=
  if a.toInt = -2147483648 ∧ b.toInt = -1 then lo = 0x80000000 ∧ hi = 0
  else
    a.toInt = lo.toInt * b.toInt + hi.toInt ∧ |hi.toInt| < |b.toInt| ∧
    (c = .truncate → hi = 0 ∨ (hi.toInt < 0 ↔ a.toInt < 0)) ∧
    (c = .floor → hi = 0 ∨ (hi.toInt < 0 ↔ b.toInt < 0))

theorem signedDivision_spec (c : SdivConvention) (a : Word) {b : Word} (hb : b ≠ 0) :
    IsSignedDivision c a b (BitVec.ofInt 32 (a.toInt - signedQuotient c a.toInt b.toInt * b.toInt))
      (BitVec.ofInt 32 (signedQuotient c a.toInt b.toInt)) := by
  unfold IsSignedDivision
  split
  · next hmin =>
    rw [hmin.left, hmin.right]
    cases c <;> decide
  · next hmin =>
    obtain ⟨hlo, hhi⟩ := word_toInt_range a
    obtain ⟨hqlo, hqhi⟩ := signedQuotient_range c hlo hhi (toInt_ne_zero hb) hmin
    rw [eq_zero_iff_toInt, toInt_ofInt_of_range hqlo hqhi, toInt_ofInt_remainder c _ hb]
    refine ⟨by ring, abs_remainder_lt c _ (toInt_ne_zero hb), ?_, ?_⟩
    · rintro rfl
      rw [truncate_remainder]
      exact tmod_sign _ _
    · rintro rfl
      rw [floor_remainder]
      exact fmod_sign _ (toInt_ne_zero hb)

/-- The unsigned remainder as `divu` computes it. -/
theorem toNat_ofNat_remainder (a b : Word) :
    (BitVec.ofNat 32 (a.toNat - a.toNat / b.toNat * b.toNat)).toNat = a.toNat % b.toNat := by
  rw [← Nat.mod_eq_sub_div_mul, BitVec.toNat_ofNat]
  exact Nat.mod_eq_of_lt ((Nat.mod_le _ _).trans_lt a.isLt)

theorem toNat_ofNat_quotient (a b : Word) :
    (BitVec.ofNat 32 (a.toNat / b.toNat)).toNat = a.toNat / b.toNat := by
  rw [BitVec.toNat_ofNat]
  exact Nat.mod_eq_of_lt ((Nat.div_le_self _ _).trans_lt a.isLt)

/-- A division by zero completes; `hi` and `lo` use up two draws. -/
theorem exec_divides_by_zero {s : State} {i : Instr} (hi : exec i s = s.finishDivideByZero) :
    ∃ t, exec i s = .next t ∧ After s t {} ∧ Frame s t [.hi, .lo, .draws] := by
  have hdraws : Frame s s.drawn.drawn [.draws] := (frame_drawn s).trans (frame_drawn s.drawn)
  refine ⟨_, hi, after_complete _ rfl rfl rfl rfl rfl rfl rfl,
    frame_complete ((hdraws.mono ?_).trans ((frame_hiLo s.drawn.drawn _ _).mono ?_)) _⟩ <;> simp

/-- Settles O17: the quotient and the remainder of each division, and its completion by zero. -/
theorem divide : Obligations.Divide := by
  intro s rs rt
  refine ⟨fun h => ⟨exec_divides_by_zero (if_pos h), exec_divides_by_zero (if_pos h)⟩, fun h => ?_, fun h => ?_⟩
  · exact exec_writes_hiLo (Q := IsSignedDivision s.cfg.sdiv (s.x rs) (s.x rt)) (exec_div_of_ne h)
      (signedDivision_spec _ _ h)
  · refine exec_writes_hiLo
      (Q := fun hi lo => (s.x rs).toNat = lo.toNat * (s.x rt).toNat + hi.toNat ∧ hi.toNat < (s.x rt).toNat)
      (exec_divu_of_ne h) ?_
    rw [toNat_ofNat_remainder, toNat_ofNat_quotient]
    exact ⟨(Nat.div_add_mod' _ _).symm, Nat.mod_lt _ (Nat.pos_of_ne_zero fun h0 => h (BitVec.eq_of_toNat_eq h0))⟩

end Sys2Proof.Machine
end

section
/-! Comparisons (`41_const_compare.md`, rules R175 to R178). -/

namespace Sys2Proof.Machine

/-- The truth word of a comparison, as the 1 or 0 the rules write. -/
theorem boolWord_decide (p : Prop) [Decidable p] : boolWord (decide p) = if p then 1 else 0 := by
  by_cases h : p <;> simp [boolWord, h]

theorem boolWord_slt (a b : Word) : boolWord (a.slt b) = if a.toInt < b.toInt then 1 else 0 :=
  boolWord_decide (a.toInt < b.toInt)

theorem boolWord_ult (a b : Word) : boolWord (a.ult b) = if a.toNat < b.toNat then 1 else 0 :=
  boolWord_decide (a.toNat < b.toNat)

/-- Settles O15: each comparison writes the truth word of its order, the immediates sign-extended. -/
theorem setLessThan : Obligations.SetLessThan := by
  intro s f rd rs rt imm
  rw [← toInt_sext imm]
  exact ⟨rfl, rfl, rfl, rfl, exec_writes_eq rfl (boolWord_slt _ _), exec_writes_eq rfl (boolWord_ult _ _),
    exec_writes_eq rfl (boolWord_slt _ _), exec_writes_eq rfl (boolWord_ult _ _)⟩

end Sys2Proof.Machine
end

section
/-! Branches and jumps (`42_branch_jump.md`, rules R190 to R192, R196 to R203, R214 to R217), and the link they may
write (rule R12). -/

namespace Sys2Proof.Machine

/-! ## Completing at a target -/

/-- Where control goes after a completed `Branch(a)`: at once, or after the instruction in the delay slot. -/
theorem After.destination {s t : State} {c : Completion} {a : Word} (h : After s t c) (ha : c.target = some a) :
    (if s.cfg.delaySlots then t.npc else t.pc) = a := by
  obtain ⟨hnoSlot, hslot, _⟩ := h
  split
  · next hd =>
    obtain ⟨_, hnpc, _⟩ := hslot hd
    rw [hnpc, ha, Option.getD_some]
  · next hd =>
    obtain ⟨hpc, _⟩ := hnoSlot (Bool.eq_false_iff.2 hd)
    rw [hpc, ha, Option.getD_some]

/-- An instruction that only moves control completes and changes nothing else. -/
theorem exec_transfers {s : State} {i : Instr} {c : Completion} (hi : exec i s = s.complete c) :
    ∃ t, exec i s = .next t ∧ Frame s t [] ∧ After s t c :=
  ⟨_, hi, frame_complete (Frame.refl s _) c, after_complete c rfl rfl rfl rfl rfl rfl rfl⟩

/-- A linking instruction writes the link register and completes, wherever it goes. -/
theorem exec_links {s : State} {i : Instr} {rd : Reg} {c : Completion}
    (hi : exec i s = (s.setX rd s.linkAddr).complete c) :
    ∃ t, exec i s = .next t ∧ Frame s t [.gpr rd] ∧ t.holds rd (linkValue s) ∧ After s t c := by
  refine ⟨_, hi, frame_complete (frame_setX s rd _) c, ?_, after_complete c ?_ ?_ ?_ ?_ ?_ ?_ ?_⟩
  · simp [State.holds, x_setX, linkValue, State.linkAddr]
  all_goals simp

/-! ## Targets (rules R190, R191) -/

/-- A branch is relative to the next instruction: the sign-extended offset, in bytes, is added to its address. -/
theorem branchTarget_of_displacement {offset : BitVec 16} {d : Word} (h : (offset ++ 0#2).signExtend 32 = d)
    (pc : Word) : branchTarget pc offset = pc + 4 + d := by
  rw [branchTarget, h]

/-- From an aligned instruction a branch reaches aligned ones only. -/
theorem branchTarget_aligned {pc : Word} (hpc : pc.toNat % 4 = 0) (offset : BitVec 16) :
    (branchTarget pc offset).toNat % 4 = 0 := by
  rw [branchTarget_eq, BitVec.toNat_ofInt]
  omega

theorem toNat_append_eq_add {m n : Nat} (x : BitVec m) (y : BitVec n) :
    (x ++ y).toNat = x.toNat * 2 ^ n + y.toNat := by
  rw [BitVec.toNat_append, ← Nat.shiftLeft_add_eq_or_of_lt y.isLt, Nat.shiftLeft_eq]

/-- The jump target as a number: the base of the next instruction's region and four times the target field. -/
theorem toNat_jumpTarget (pc : Word) (target : BitVec 26) :
    (jumpTarget pc target).toNat = (pc + 4).toNat / 268435456 * 268435456 + target.toNat * 4 := by
  have hregion : ((pc + 4).extractLsb' 28 4).toNat = (pc + 4).toNat / 268435456 := by
    rw [BitVec.extractLsb'_toNat, Nat.shiftRight_eq_div_pow]
    exact Nat.mod_eq_of_lt (by have := (pc + 4).isLt; omega)
  rw [jumpTarget, toNat_append_eq_add, toNat_append_eq_add, hregion, BitVec.toNat_ofNat]
  omega

/-- A jump in the last word of a region goes into the next region. -/
theorem jumpTarget_of_last_word {pc : Word} (hpc : pc.toNat % 268435456 = 0xFFFFFFC) (target : BitVec 26) :
    (jumpTarget pc target).toNat / 268435456 = (pc.toNat / 268435456 + 1) % 16 := by
  have htarget := target.isLt
  rw [toNat_jumpTarget, BitVec.toNat_add, show (4 : Word).toNat = 4 from rfl]
  omega

/-! ## Branches (rules R192, R196 to R203) -/

/-- An instruction that answers `branch` branches by any statement equivalent to its test. -/
theorem branchesIf_of_test {s : State} {i : Instr} {c : Bool} {p : Prop} [Decidable p] {offset : BitVec 16}
    (hi : exec i s = s.branch c offset) (hc : c = true ↔ p) : BranchesIf s i (decide p) offset [] := by
  obtain rfl : c = decide p := Bool.eq_iff_iff.2 (hc.trans decide_eq_true_iff.symm)
  unfold BranchesIf
  rw [hi]
  exact branch_spec s _ offset

/-- A linking branch, with the test on the old registers: it links whether or not it branches. -/
theorem branchesIf_of_test_linking {s : State} {i : Instr} {c : Bool} {p : Prop} [Decidable p]
    {offset : BitVec 16} (hi : exec i s = (s.setX 31 s.linkAddr).branch c offset) (hc : c = true ↔ p) :
    BranchesIf s i (decide p) offset [.gpr 31] ∧ ∀ t, exec i s = .next t → t.x 31 = linkValue s := by
  obtain rfl : c = decide p := Bool.eq_iff_iff.2 (hc.trans decide_eq_true_iff.symm)
  rw [State.branch, setX_pc, branchTarget_eq] at hi
  obtain ⟨t, ht, hframe, hlink, hafter⟩ := exec_links hi
  refine ⟨⟨t, ht, hframe, hafter⟩, fun u hu => ?_⟩
  obtain rfl : t = u := by simpa [ht] using hu
  exact hlink.of_ne_zero (by decide)

/-! The signed comparisons with 0, by the sign bit. -/

theorem decide_toInt_neg_iff (v : Word) : decide (v.toInt < 0) = true ↔ v.msb = true := by
  rw [BitVec.msb_eq_toInt]

theorem decide_toInt_nonneg_iff (v : Word) : decide (0 ≤ v.toInt) = true ↔ v.msb = false := by
  rw [BitVec.msb_eq_toInt, decide_eq_true_iff, decide_eq_false_iff_not, not_lt]

theorem decide_toInt_nonpos_iff (v : Word) : decide (v.toInt ≤ 0) = true ↔ v.msb = true ∨ v = 0 := by
  rw [decide_eq_true_iff, ← decide_toInt_neg_iff, decide_eq_true_iff, ← BitVec.toInt_inj]
  exact le_iff_lt_or_eq

theorem decide_toInt_pos_iff (v : Word) : decide (0 < v.toInt) = true ↔ v.msb = false ∧ v ≠ 0 := by
  rw [decide_eq_true_iff, ← decide_toInt_nonneg_iff, decide_eq_true_iff, ne_comm, ne_eq, ← BitVec.toInt_inj]
  exact lt_iff_le_and_ne

/-- Settles O21: each test by the condition its rule gives. -/
theorem conditionalBranches : Obligations.ConditionalBranches := fun s rs _ _ =>
  ⟨branchesIf_of_test rfl beq_iff_eq, branchesIf_of_test rfl bne_iff_ne,
    branchesIf_of_test rfl (decide_toInt_nonpos_iff (s.x rs)),
    branchesIf_of_test rfl (decide_toInt_pos_iff (s.x rs)),
    branchesIf_of_test rfl (decide_toInt_neg_iff (s.x rs)),
    branchesIf_of_test rfl (decide_toInt_nonneg_iff (s.x rs))⟩

/-- Settles O22: the link is written before the branch, but the test reads the old register. -/
theorem linkingBranches : Obligations.LinkingBranches := by
  refine fun s rs offset => ⟨fun hrs => ?_, rfl, rfl⟩
  obtain ⟨hltz, hltzLink⟩ := branchesIf_of_test_linking (i := .bltzal rs offset) (if_neg hrs)
    (decide_toInt_neg_iff (s.x rs))
  obtain ⟨hgez, hgezLink⟩ := branchesIf_of_test_linking (i := .bgezal rs offset) (if_neg hrs)
    (decide_toInt_nonneg_iff (s.x rs))
  exact ⟨hltz, hgez, hltzLink, hgezLink⟩

/-- Settles O19: the target as an integer, its value at the ends of the offset's range and next to the branch, and
`beq` of a register with itself as the branch always taken. -/
theorem branchTargetLaw : Obligations.BranchTarget := by
  refine ⟨fun pc offset => ⟨branchTarget_eq pc offset, ?_, ?_, ?_, ?_, fun hpc => ?_⟩, fun s r offset => ?_⟩
  · rw [branchTarget_of_displacement (d := 0) (by decide), add_zero]
  · rw [branchTarget_of_displacement (d := -4) (by decide), add_neg_cancel_right]
  · exact branchTarget_of_displacement (by decide) pc
  · rw [branchTarget_of_displacement (d := -0x20000) (by decide), sub_eq_add_neg]
  · exact branchTarget_aligned hpc offset
  · obtain ⟨⟨t, ht, _, hafter⟩, _⟩ := conditionalBranches s r r offset
    rw [decide_eq_true rfl, if_pos rfl, ← branchTarget_eq] at hafter
    obtain ⟨hnoSlot, hslot, _⟩ := hafter
    refine ⟨t, ht, fun hd => ?_, fun hd => ?_⟩
    · obtain ⟨hpc, _⟩ := hnoSlot hd
      exact hpc
    · obtain ⟨hpc, hnpc, _⟩ := hslot hd
      exact ⟨hpc, hnpc⟩

/-! ## Jumps (rules R214 to R217) -/

/-- Settles O23: a jump only moves control; with a link it also writes the link register. -/
theorem jumps : Obligations.Jumps := by
  refine fun s rs rd target => ⟨exec_transfers rfl, ?_, exec_transfers rfl, fun hne => exec_links (if_neg hne),
    if_pos rfl⟩
  have hjal : exec (.jal target) s = (s.setX 31 s.linkAddr).jump (jumpTarget s.pc target) := rfl
  obtain ⟨t, ht, hframe, hlink, hafter⟩ := exec_links hjal
  exact ⟨t, ht, hframe, hlink.of_ne_zero (by decide), hafter⟩

/-- Settles O20: the region's base and the target field as a number, and the destinations of the four jumps. -/
theorem jumpTargetLaw : Obligations.JumpTarget := by
  refine ⟨fun pc target => ⟨toNat_jumpTarget pc target, fun hpc => jumpTarget_of_last_word hpc target⟩,
    fun s target rs rd => ?_⟩
  obtain ⟨⟨tj, hj, _, hjAfter⟩, ⟨tjal, hjal, _, _, hjalAfter⟩, ⟨tjr, hjr, _, hjrAfter⟩, hjalr, _⟩ :=
    jumps s rs rd target
  refine ⟨⟨tj, hj, hjAfter.destination rfl⟩, ⟨tjal, hjal, hjalAfter.destination rfl⟩,
    ⟨tjr, hjr, hjrAfter.destination rfl⟩, fun hne => ?_⟩
  obtain ⟨t, ht, _, _, hafter⟩ := hjalr hne
  exact ⟨t, ht, hafter.destination rfl⟩

end Sys2Proof.Machine
end

section
/-! The loads whose register is not simply what the access finds: `lwl` and `lwr` by the bytes they merge, their pair
at the ends of an unaligned word, and the loads into coprocessor registers (rules R232, R245 to R247, R261). -/

namespace Sys2Proof.Machine

/-! ## lwl and lwr -/

section
variable {left be : Bool} {b j : Nat} {old : Word} {byte : Nat → Byte}

/-- The merged register, byte by byte (rule R232). -/
theorem regByte_laneMerge (hj : j < 4) : regByte (laneMerge left be b old byte) j =
    match lane left be b j with
    | some o => byte o
    | none => regByte old j := by
  refine BitVec.eq_of_getLsbD_eq fun n hn => ?_
  unfold laneMerge
  simp only [regByte, BitVec.getLsbD_extractLsb', hn, decide_true, Bool.true_and]
  interval_cases j <;> exact getLsbD_append_bytes _ _ _ _ (by decide) hn

theorem regByte_laneMerge_of_lane (hj : j < 4) {o : Nat} (h : lane left be b j = some o) :
    regByte (laneMerge left be b old byte) j = byte o := by
  rw [regByte_laneMerge hj, h]

theorem regByte_laneMerge_of_noLane (hb : b < 4) (hj : j < 4) (h : ∀ o < 4, lane left be b j ≠ some o) :
    regByte (laneMerge left be b old byte) j = regByte old j := by
  rw [regByte_laneMerge hj, Option.eq_none_iff_forall_ne_some.2 fun o ho => h o (lane_lt hb hj ho) ho]

end

section
variable {s : State} {a b j k : Nat} {old : Word}

/-- The byte shift `k` of the word formulas: counted in the other byte order. -/
theorem ite_eq_bytePlace_not (be : Bool) (b : Nat) : (if be then b else 3 - b) = bytePlace (!be) b := by
  cases be <;> rfl

/-- `lwl` fills the register from byte `k` up, from the bottom of the aligned word. -/
theorem regByte_laneMerge_left (hb : b < 4) (hk : k = bytePlace (!s.cfg.bigEndian) b) (hj : j < 4) :
    regByte (laneMerge true s.cfg.bigEndian b old fun o => s.byteAt (a + o)) j =
      if j < k then regByte old j else regByte (s.wordAt a) (j - k) := by
  have hlane := lane_left_iff s.cfg.bigEndian b hb j hj
  split
  · next hout =>
    exact regByte_laneMerge_of_noLane hb hj fun o ho h => by have := (hlane o ho).1 h; omega
  · next hin =>
    have hsource : j - k < 4 := by omega
    rw [regByte_wordAt s a hsource]
    refine regByte_laneMerge_of_lane hj ((hlane _ (bytePlace_lt hsource)).2 ?_)
    rw [bytePlace_bytePlace hsource]
    omega

/-- `lwr` fills the register from the bottom, from byte `3 - k` of the aligned word up. -/
theorem regByte_laneMerge_right (hb : b < 4) (hk : k = bytePlace (!s.cfg.bigEndian) b) (hj : j < 4) :
    regByte (laneMerge false s.cfg.bigEndian b old fun o => s.byteAt (a + o)) j =
      if j + (3 - k) < 4 then regByte (s.wordAt a) (j + (3 - k)) else regByte old j := by
  have hlane := lane_right_iff s.cfg.bigEndian b hb j hj
  split
  · next hin =>
    rw [regByte_wordAt s a hin]
    refine regByte_laneMerge_of_lane hj ((hlane _ (bytePlace_lt hin)).2 ?_)
    rw [bytePlace_bytePlace hin, hk]
  · next hout =>
    refine regByte_laneMerge_of_noLane hb hj fun o ho h => ?_
    have := (hlane o ho).1 h
    have := bytePlace_lt (be := s.cfg.bigEndian) ho
    omega

end

/-- Settles O31: each byte of the merged register is the one the word formula gives. -/
theorem partialLoads : Obligations.PartialLoads := by
  intro s rt base offset a b k hb hk
  have hb4 : b < 4 := by omega
  have hplace := hk.trans (ite_eq_bytePlace_not s.cfg.bigEndian b)
  refine ⟨fun h => exec_loads rfl ((loadPart_of_reach h _).trans (congrArg _ (word_ext fun j hj => ?_))),
    fun h => exec_loads rfl ((loadPart_of_reach h _).trans (congrArg _ (word_ext fun j hj => ?_)))⟩
  · rw [← hb, regByte_laneMerge_left hb4 hplace hj, regByte_lowMerge _ _ hj]
  · rw [← hb, regByte_laneMerge_right hb4 hplace hj, regByte_highMerge _ _ hj (by omega)]

/-! ## The pair at the ends of an unaligned word -/

/-- A left or right load merges bytes of its aligned word, or changes nothing. -/
theorem loadPart_eq_ok {s : State} {left : Bool} {va old v : Word} (h : s.loadPart left va old = .ok v) :
    ∃ a, s.reachPart left va .load = .ok a ∧
      v = laneMerge left s.cfg.bigEndian (va.toNat % 4) old fun o => s.byteAt (a + o) := by
  unfold State.loadPart at h
  split at h
  · cases h
  · next a ha => exact ⟨a, ha, (Except.ok.inj h).symm⟩

theorem reachPart_flat {s : State} (hflat : s.cfg.trapModel = .fault) {left : Bool} {va : Word} {k : Access} {a : Nat}
    (h : s.reachPart left va k = .ok a) : a = va.toNat - va.toNat % 4 := by
  obtain ⟨_, _, _, pa, hpa, rfl⟩ := reachPart_ok h
  rw [physical_fault hflat] at hpa
  cases hpa
  rfl

section
variable {s : State} {va old v : Word} {u j : Nat}

/-- `lwl` at the most significant byte of the word at `u` loads the bytes of that word that lie in its aligned word. -/
theorem regByte_loadPart_left (hflat : s.cfg.trapModel = .fault) (h : s.loadPart true va old = .ok v)
    (hva : va.toNat = u + bytePlace s.cfg.bigEndian 3) (hj : j < 4)
    (hin : bytePlace (!s.cfg.bigEndian) (va.toNat % 4) ≤ j) :
    regByte v j = s.byteAt (u + bytePlace s.cfg.bigEndian j) := by
  obtain ⟨a, ha, rfl⟩ := loadPart_eq_ok h
  obtain rfl := reachPart_flat hflat ha
  rw [regByte_laneMerge_left (by omega) rfl hj, if_neg (by omega), regByte_wordAt s _ (by omega)]
  congr 1
  cases hbe : s.cfg.bigEndian <;> simp [hbe, bytePlace] at hva hin ⊢ <;> omega

/-- `lwr` at the least significant byte of the word at `u` loads the bytes of that word that lie in its aligned word,
and keeps the others. -/
theorem regByte_loadPart_right (hflat : s.cfg.trapModel = .fault) (h : s.loadPart false va old = .ok v)
    (hva : va.toNat = u + bytePlace s.cfg.bigEndian 0) (hj : j < 4) :
    regByte v j = if j ≤ bytePlace (!s.cfg.bigEndian) (va.toNat % 4) then
      s.byteAt (u + bytePlace s.cfg.bigEndian j) else regByte old j := by
  obtain ⟨a, ha, rfl⟩ := loadPart_eq_ok h
  obtain rfl := reachPart_flat hflat ha
  have hb : va.toNat % 4 < 4 := by omega
  have hk := bytePlace_lt (be := !s.cfg.bigEndian) hb
  rw [regByte_laneMerge_right hb rfl hj]
  split
  · next hin =>
    rw [if_pos (by omega), regByte_wordAt s _ hin]
    congr 1
    cases hbe : s.cfg.bigEndian <;> simp [hbe, bytePlace] at hva hin ⊢ <;> omega
  · next hout => rw [if_neg (by omega)]

end

/-- What `lwr` keeps of the word at `u`, `lwl` has loaded, so the pair loads the word, aligned or not (rule R261). -/
theorem loadPart_pair {s : State} {p q old v w : Word} {u : Nat} (hflat : s.cfg.trapModel = .fault)
    (hp : p.toNat = u + bytePlace s.cfg.bigEndian 3) (hq : q.toNat = u + bytePlace s.cfg.bigEndian 0)
    (hleft : s.loadPart true p old = .ok v) (hright : s.loadPart false q v = .ok w) : w = s.wordAt u := by
  refine word_ext fun j hj => ?_
  rw [regByte_wordAt s u hj, regByte_loadPart_right hflat hright hq hj]
  split
  · rfl
  · next hout =>
    refine regByte_loadPart_left hflat hleft hp hj ?_
    cases hbe : s.cfg.bigEndian <;> simp [hbe, bytePlace] at hp hq hout ⊢ <;> omega

/-- Settles O33: `va` and `va + 3` are the ends of the word, which is which by the byte order. -/
theorem unalignedWord : Obligations.UnalignedWord := by
  intro s va old v w hflat hva
  have hend : (va + 3).toNat = va.toNat + 3 := by
    rw [BitVec.toNat_add, show (3 : Word).toNat = 3 from rfl]; omega
  refine ⟨fun hbe hleft hright => ?_, fun hbe hleft hright => ?_⟩
  · have hpair := loadPart_pair (u := va.toNat) hflat (by rw [hbe]; rfl) (by rw [hbe]; exact hend) hleft hright
    rwa [State.wordAt, hbe] at hpair
  · have hpair := loadPart_pair (u := va.toNat) hflat (by rw [hbe]; exact hend) (by rw [hbe]; rfl) hleft hright
    rwa [State.wordAt, hbe] at hpair

/-! ## lwc0 to lwc3 -/

theorem loadThen_of_reach {s : State} {va : Word} {a : Nat} (h : s.reach va 4 .load = .ok a) (k : Word → Result) :
    s.loadThen (s.loadWord va) k = k (s.wordAt a) := by rw [loadWord_of_reach h]; rfl

/-- Settles O35: each load completes after the write of one register of its coprocessor. -/
theorem coprocessorLoads : Obligations.CoprocessorLoads := by
  refine ⟨fun _ _ _ _ => rfl, fun s rt base offset a h => ⟨fun h1 => ?_, fun h2 => ?_, fun h3 => ?_⟩⟩
  · exact exec_completes h1 (congrArg (s.onCop 1) (loadThen_of_reach h _)) (frame_setF s rt _) (by simp [f_setF])
  · exact exec_completes h2 (congrArg (s.onCop 2) (loadThen_of_reach h _)) (frame_cpr2 s rt _)
      (by simp [regGet_regSet])
  · exact exec_completes h3 (congrArg (s.onCop 3) (loadThen_of_reach h _)) (frame_cpr3 s rt _)
      (by simp [regGet_regSet])

end Sys2Proof.Machine
end

section
/-! The moves to and from `hi` and `lo` (`44_data_movement.md`, rules R272 to R275). -/

namespace Sys2Proof.Machine

theorem frame_hi (s : State) (v : Word) : Frame s { s with hi := v } [.hi] := by
  intro p hp
  cases p with
  | hi => simp at hp
  | _ => rfl

theorem frame_lo (s : State) (v : Word) : Frame s { s with lo := v } [.lo] := by
  intro p hp
  cases p with
  | lo => simp at hp
  | _ => rfl

/-- A move from `hi` or `lo` completes with the register written, and counts as their read (rule R432). -/
theorem exec_moves_from_hiLo {s : State} {i : Instr} {rd : Reg} {v : Word}
    (hi : exec i s = (s.setX rd v).complete { readsHiLo := true }) :
    ∃ t, exec i s = .next t ∧ After s t { readsHiLo := true } ∧ Frame s t [.gpr rd] ∧ t.holds rd v := by
  refine ⟨_, hi, after_complete _ ?_ ?_ ?_ ?_ ?_ ?_ ?_, frame_complete (frame_setX s rd v) _, ?_⟩ <;>
    simp [State.holds, x_setX]

theorem exec_mthi (s : State) (rs : Reg) :
    ∃ t, exec (.mthi rs) s = .next t ∧ After s t {} ∧ Frame s t [.hi] ∧ t.hi = s.x rs :=
  ⟨_, rfl, after_complete _ rfl rfl rfl rfl rfl rfl rfl, frame_complete (frame_hi s _) _, by simp⟩

theorem exec_mtlo (s : State) (rs : Reg) :
    ∃ t, exec (.mtlo rs) s = .next t ∧ After s t {} ∧ Frame s t [.lo] ∧ t.lo = s.x rs :=
  ⟨_, rfl, after_complete _ rfl rfl rfl rfl rfl rfl rfl, frame_complete (frame_lo s _) _, by simp⟩

/-- Settles O18: `mfhi` and `mflo` write one general register, `mthi` and `mtlo` one of the pair. -/
theorem moveHiLo : Obligations.MoveHiLo := fun s r =>
  ⟨exec_moves_from_hiLo rfl, exec_moves_from_hiLo rfl, exec_mthi s r, exec_mtlo s r⟩

end Sys2Proof.Machine
end

section
/-! Floating-point operations before rounding, sign changes, moves and compares (rules R291, R293, R300, R301, R314,
R315, R318 to R336): the operations on the values of bit patterns, and the instructions that end in one result. -/

namespace Sys2Proof.Machine

/-! ## The rational of a signed quotient -/

theorem signedNat_neg (p : Bool) (n : Nat) : signedNat (!p) n = -signedNat p n := by
  cases p <;> simp [signedNat]

theorem signedNat_natAbs (n : Int) : signedNat (n < 0) n.natAbs = n := by
  simp only [signedNat, decide_eq_true_eq]
  split <;> omega

theorem signedQuot_eq_div (p : Bool) (n d : Nat) : signedQuot p n d = (signedNat p n : ℚ) / d := by
  cases p <;> simp [signedQuot, signedNat, neg_div]

theorem signedQuot_neg (p : Bool) (n d : Nat) : signedQuot (!p) n d = -signedQuot p n d := by
  cases p <;> simp [signedQuot]

theorem signedQuot_zero (p : Bool) (d : Nat) : signedQuot p 0 d = 0 := by cases p <;> simp [signedQuot]

/-- The numerator over the common denominator: what `FVal.add` tests for 0. -/
theorem signedQuot_add {b d : Nat} (hb : b ≠ 0) (hd : d ≠ 0) (p q : Bool) (a c : Nat) :
    signedQuot p a b + signedQuot q c d =
      ((signedNat p a * d + signedNat q c * b : ℤ) : ℚ) / ((b * d : ℕ) : ℚ) := by
  have hb : (b : ℚ) ≠ 0 := Nat.cast_ne_zero.2 hb
  have hd : (d : ℚ) ≠ 0 := Nat.cast_ne_zero.2 hd
  rw [signedQuot_eq_div, signedQuot_eq_div, div_add_div _ _ hb hd]
  push_cast
  ring

theorem signedQuot_mul (p q : Bool) (a b c d : Nat) :
    signedQuot (p != q) (a * c) (b * d) = signedQuot p a b * signedQuot q c d := by
  cases p <;> cases q <;> simp [signedQuot, div_mul_div_comm]

theorem signedQuot_div (p q : Bool) (a b c d : Nat) :
    signedQuot (p != q) (a * d) (b * c) = signedQuot p a b / signedQuot q c d := by
  cases p <;> cases q <;> simp [signedQuot, div_div_div_eq, neg_div, div_neg]

/-! ## The four operations on values (rules R291, R293) -/

theorem FVal.add_nan_right (rm : RoundMode) (v : FVal) : FVal.add rm v .nan = .nan := by cases v <;> rfl

theorem FVal.mul_nan_right (v : FVal) : FVal.mul v .nan = .nan := by cases v <;> rfl

theorem FVal.div_nan_right (v : FVal) : FVal.div v .nan = .nan := by cases v <;> rfl

theorem FVal.add_rat_of_cancel (rm : RoundMode) {p q : Bool} {a b c d : Nat}
    (h : signedNat p a * d + signedNat q c * b = 0) :
    FVal.add rm (.rat p a b) (.rat q c d) = .rat (if p = q then p else rm = .down) 0 1 := if_pos h

theorem FVal.add_rat_of_ne (rm : RoundMode) {p q : Bool} {a b c d : Nat}
    (h : signedNat p a * d + signedNat q c * b ≠ 0) :
    FVal.add rm (.rat p a b) (.rat q c d) = .rat (signedNat p a * d + signedNat q c * b < 0)
      (signedNat p a * d + signedNat q c * b).natAbs (b * d) := if_neg h

/-- The sum of finite values is exact, whether it is 0 or not. -/
theorem FVal.add_rat_exact (rm : RoundMode) (p q : Bool) (a c : Nat) {b d : Nat} (hb : b ≠ 0) (hd : d ≠ 0) :
    ∃ r n m, m ≠ 0 ∧ FVal.add rm (.rat p a b) (.rat q c d) = .rat r n m ∧
      signedQuot r n m = signedQuot p a b + signedQuot q c d := by
  by_cases h : signedNat p a * d + signedNat q c * b = 0
  · exact ⟨_, _, _, one_ne_zero, add_rat_of_cancel rm h, by simp [signedQuot_add hb hd, h, signedQuot_zero]⟩
  · refine ⟨_, _, _, Nat.mul_ne_zero hb hd, add_rat_of_ne rm h, ?_⟩
    rw [signedQuot_eq_div, signedNat_natAbs, signedQuot_add hb hd]

/-- A zero sum of finite values has a zero numerator over the common denominator. -/
theorem FVal.add_rat_of_sum_zero (rm : RoundMode) {p q : Bool} {a b c d : Nat} (hb : b ≠ 0) (hd : d ≠ 0)
    (h : signedQuot p a b + signedQuot q c d = 0) :
    FVal.add rm (.rat p a b) (.rat q c d) = .rat (if p = q then p else rm = .down) 0 1 := by
  refine add_rat_of_cancel rm ?_
  rw [signedQuot_add hb hd, div_eq_zero_iff, Int.cast_eq_zero, Nat.cast_eq_zero] at h
  exact h.resolve_right (Nat.mul_ne_zero hb hd)

theorem FVal.div_rat (p q : Bool) (a b d : Nat) {c : Nat} (hc : c ≠ 0) :
    FVal.div (.rat p a b) (.rat q c d) = .rat (p != q) (a * d) (b * c) := if_neg hc

theorem FVal.add_rat_neg_self (rm : RoundMode) (p : Bool) (n d : Nat) :
    FVal.add rm (.rat p n d) (FVal.neg (.rat p n d)) = .rat (rm = .down) 0 1 := by
  have hcancel : signedNat p n * d + signedNat (!p) n * d = 0 := by rw [signedNat_neg]; ring
  rw [FVal.neg, add_rat_of_cancel rm hcancel]
  simp

/-- Settles O45: finite operands by the exact rational operations, the others by the cases of the definitions. -/
theorem fpSpecialCases : Obligations.FpSpecialCases := by
  refine ⟨fun rm p q a b c d hb hd => ⟨FVal.add_rat_exact rm p q a c hb hd, fun h => ?_, ?_, fun hc => ?_⟩, ?_⟩
  · exact ⟨1, one_ne_zero, FVal.add_rat_of_sum_zero rm hb hd h⟩
  · exact ⟨_, _, Nat.mul_ne_zero hb hd, rfl, signedQuot_mul p q a b c d⟩
  · exact ⟨_, _, Nat.mul_ne_zero hb hc, FVal.div_rat p q a b d hc, signedQuot_div p q a b c d⟩
  · intro rm v p q n d c m hn _ _ _
    have hopposite : FVal.add rm (.inf p) (FVal.neg (.inf p)) = .nan := if_neg (by simp)
    have hmul : FVal.mul (.rat q n d) (.inf p) = .inf (p != q) := (if_neg hn).trans (by rw [Bool.xor_comm])
    have hinfOverZero : FVal.div (.rat p n d) (.rat q 0 m) = .inf (p != q) := if_neg hn
    exact ⟨rfl, FVal.add_nan_right rm v, rfl, FVal.mul_nan_right v, rfl, FVal.div_nan_right v, hopposite, rfl, rfl,
      rfl, rfl, hinfOverZero, rfl, rfl, if_neg hn, rfl, hmul, rfl, rfl, if_pos rfl, rfl, rfl, rfl, rfl, rfl,
      ⟨1, FVal.add_rat_neg_self rm p n d⟩, ⟨1, d * m, rfl, by simp [FVal.mul]⟩, ⟨1, rfl⟩⟩

/-! ## The sign bit (rules R300, R301, R314, R315, R318, R319) -/

theorem FVal.isNaN_iff {v : FVal} : v.isNaN = true ↔ v = .nan := by cases v <;> simp [FVal.isNaN]

theorem clearSign_eq_and {n : Nat} (b : BitVec (1 + n)) :
    0#1 ++ b.extractLsb' 0 n = b &&& BitVec.ofNat (1 + n) (2 ^ n - 1) := by
  refine BitVec.eq_of_getLsbD_eq fun k hk => ?_
  simp only [BitVec.getLsbD_append, BitVec.getLsbD_extractLsb', BitVec.getLsbD_and, BitVec.getLsbD_ofNat,
    Nat.testBit_two_pow_sub_one]
  by_cases h : k < n <;> simp [h, hk]

theorem flipSign_eq_xor {n : Nat} (b : BitVec (1 + n)) :
    ~~~(b.extractLsb' n 1) ++ b.extractLsb' 0 n = b ^^^ BitVec.ofNat (1 + n) (2 ^ n) := by
  refine BitVec.eq_of_getLsbD_eq fun k hk => ?_
  simp only [BitVec.getLsbD_append, BitVec.getLsbD_not, BitVec.getLsbD_extractLsb', BitVec.getLsbD_xor,
    BitVec.getLsbD_ofNat, Nat.testBit_two_pow]
  rcases Nat.lt_or_ge k n with h | h
  · simp [h, h.ne']
  · obtain rfl : k = n := by omega
    simp

/-- The default functions of the sign, whose NaN test is that of the value. -/
theorem ieee754_signs (a : Word) (x : DWord) :
    abs32 a = (if val32 a = .nan then none else some (a &&& 0x7FFFFFFF)) ∧
    neg32 a = (if val32 a = .nan then none else some (a ^^^ 0x80000000)) ∧
    abs64 x = (if val64 x = .nan then none else some (x &&& 0x7FFFFFFFFFFFFFFF)) ∧
    neg64 x = (if val64 x = .nan then none else some (x ^^^ 0x8000000000000000)) := by
  simp only [abs32, neg32, abs64, neg64, FVal.isNaN_iff, clearSign_eq_and (n := 31), flipSign_eq_xor (n := 31),
    clearSign_eq_and (n := 63), flipSign_eq_xor (n := 63)]
  exact ⟨rfl, rfl, rfl, rfl⟩

/-- Settles O48: the sign changes end in a result, the moves in the bits they copy. -/
theorem fpSignAndMove : Obligations.FpSignAndMove := by
  refine ⟨fun s a x h => ?_, fun s fd fs hgate => ⟨exec_single hgate rfl, exec_single hgate rfl, ?_, fun hd hs => ?_⟩⟩
  · rw [fp_ieee754 s h]
    exact ieee754_signs a x
  · exact exec_completes hgate rfl (frame_setF s fd _) (by simp [f_setF])
  · have heven : [fd, fs].all evenReg = true := by simp [hd, hs]
    exact ⟨exec_double hgate heven rfl, exec_double hgate heven rfl,
      exec_completes hgate (congrArg (s.onCop 1) (if_pos heven)) (frame_setD s fd _) (by simp [d_setD])⟩

/-! ## Compares (rule R320) -/

theorem FVal.relation_eq (v w : FVal) :
    FVal.relation v w = ⟨FVal.lt v w, FVal.eq v w, (v = .nan ∨ w = .nan : Bool)⟩ := by
  have h : (v.isNaN || w.isNaN) = (v = .nan ∨ w = .nan : Bool) := Bool.eq_iff_iff.2 (by simp [FVal.isNaN_iff])
  rw [FVal.relation, h]

/-- A single-precision compare completes with its condition's value in the table of rule R320, for whatever the
comparison finds. -/
theorem comparesTo_single {s : State} {i : Instr} {fs ft : Reg} {l e u c : Bool} (cond : BitVec 4)
    (hgate : s.gate 1 = none) (h : s.fp.relation32 (s.f fs) (s.f ft) = ⟨l, e, u⟩)
    (hi : exec i s = s.compareS cond fs ft) (hc : compareCondition cond ⟨l, e, u⟩ = c) : ComparesTo s i c := by
  rw [State.compareS, onCop_of_gate hgate, h, hc] at hi
  rw [ComparesTo, hi]
  exact finishCompare_spec s _

/-- A double-precision compare of even registers likewise. -/
theorem comparesTo_double {s : State} {i : Instr} {fs ft : Reg} {l e u c : Bool} (cond : BitVec 4)
    (hgate : s.gate 1 = none) (heven : [fs, ft].all evenReg = true)
    (h : s.fp.relation64 (s.d fs) (s.d ft) = ⟨l, e, u⟩) (hi : exec i s = s.compareD cond fs ft)
    (hc : compareCondition cond ⟨l, e, u⟩ = c) : ComparesTo s i c := by
  rw [State.compareD, onCop_of_gate hgate, State.onEven, if_pos heven, h, hc] at hi
  rw [ComparesTo, hi]
  exact finishCompare_spec s _

/-- The table of rule R320: bit 3 of the condition is not read, bits 2 to 0 select less, equal and unordered. -/
theorem compareCondition_table (hi : BitVec 1) (l e u : Bool) :
    compareCondition (hi ++ 0#3) ⟨l, e, u⟩ = false ∧ compareCondition (hi ++ 1#3) ⟨l, e, u⟩ = u ∧
    compareCondition (hi ++ 2#3) ⟨l, e, u⟩ = e ∧ compareCondition (hi ++ 3#3) ⟨l, e, u⟩ = (u || e) ∧
    compareCondition (hi ++ 4#3) ⟨l, e, u⟩ = l ∧ compareCondition (hi ++ 5#3) ⟨l, e, u⟩ = (u || l) ∧
    compareCondition (hi ++ 6#3) ⟨l, e, u⟩ = (l || e) ∧ compareCondition (hi ++ 7#3) ⟨l, e, u⟩ = (u || l || e) := by
  revert hi l e u
  decide

/-- Settles O50: each compare is its condition number's row of the table. -/
theorem compares : Obligations.Compares := by
  refine ⟨fun s a b x y h => ?_, fun s fs ft hgate => ⟨fun l e u h => ?_, fun hs ht l e u h => ?_⟩⟩
  · rw [fp_ieee754 s h]
    exact ⟨FVal.relation_eq _ _, FVal.relation_eq _ _⟩
  · obtain ⟨h0, h1, h2, h3, h4, h5, h6, h7⟩ := compareCondition_table 0 l e u
    obtain ⟨h8, h9, h10, h11, h12, h13, h14, h15⟩ := compareCondition_table 1 l e u
    exact ⟨comparesTo_single 0 hgate h rfl h0, comparesTo_single 1 hgate h rfl h1,
      comparesTo_single 2 hgate h rfl h2, comparesTo_single 3 hgate h rfl h3, comparesTo_single 4 hgate h rfl h4,
      comparesTo_single 5 hgate h rfl h5, comparesTo_single 6 hgate h rfl h6, comparesTo_single 7 hgate h rfl h7,
      comparesTo_single 8 hgate h rfl h8, comparesTo_single 9 hgate h rfl h9, comparesTo_single 10 hgate h rfl h10,
      comparesTo_single 11 hgate h rfl h11, comparesTo_single 12 hgate h rfl h12,
      comparesTo_single 13 hgate h rfl h13, comparesTo_single 14 hgate h rfl h14,
      comparesTo_single 15 hgate h rfl h15⟩
  · obtain ⟨h0, h1, h2, h3, h4, h5, h6, h7⟩ := compareCondition_table 0 l e u
    obtain ⟨h8, h9, h10, h11, h12, h13, h14, h15⟩ := compareCondition_table 1 l e u
    have heven : [fs, ft].all evenReg = true := by simp [hs, ht]
    exact ⟨comparesTo_double 0 hgate heven h rfl h0, comparesTo_double 1 hgate heven h rfl h1,
      comparesTo_double 2 hgate heven h rfl h2, comparesTo_double 3 hgate heven h rfl h3,
      comparesTo_double 4 hgate heven h rfl h4, comparesTo_double 5 hgate heven h rfl h5,
      comparesTo_double 6 hgate heven h rfl h6, comparesTo_double 7 hgate heven h rfl h7,
      comparesTo_double 8 hgate heven h rfl h8, comparesTo_double 9 hgate heven h rfl h9,
      comparesTo_double 10 hgate heven h rfl h10, comparesTo_double 11 hgate heven h rfl h11,
      comparesTo_double 12 hgate heven h rfl h12, comparesTo_double 13 hgate heven h rfl h13,
      comparesTo_double 14 hgate heven h rfl h14, comparesTo_double 15 hgate heven h rfl h15⟩

/-! ## The order of values (rule R320) -/

theorem signedQuot_lt_iff {b d : Nat} (hb : b ≠ 0) (hd : d ≠ 0) (p q : Bool) (a c : Nat) :
    signedQuot p a b < signedQuot q c d ↔ signedNat p a * d < signedNat q c * b := by
  rw [signedQuot_eq_div, signedQuot_eq_div, div_lt_div_iff₀ (by positivity) (by positivity)]
  exact_mod_cast Iff.rfl

theorem signedQuot_eq_iff {b d : Nat} (hb : b ≠ 0) (hd : d ≠ 0) (p q : Bool) (a c : Nat) :
    signedQuot p a b = signedQuot q c d ↔ signedNat p a * d = signedNat q c * b := by
  rw [signedQuot_eq_div, signedQuot_eq_div, div_eq_div_iff (by positivity) (by positivity)]
  exact_mod_cast Iff.rfl

theorem FVal.lt_rat {p q : Bool} {a b c d : Nat} :
    FVal.lt (.rat p a b) (.rat q c d) = true ↔ signedNat p a * d < signedNat q c * b := decide_eq_true_iff

theorem FVal.eq_rat {p q : Bool} {a b c d : Nat} :
    FVal.eq (.rat p a b) (.rat q c d) = true ↔ signedNat p a * d = signedNat q c * b := decide_eq_true_iff

/-- Exactly one of less, greater, equal and unordered, by the kinds of the two values and the trichotomy of
integers. -/
theorem FVal.relation_exclusive (v w : FVal) :
    [FVal.lt v w, FVal.lt w v, FVal.eq v w, v.isNaN || w.isNaN].count true = 1 := by
  cases v with
  | nan => cases w <;> rfl
  | inf p =>
    cases w with
    | nan => rfl
    | inf q => cases p <;> cases q <;> rfl
    | rat q c d => cases p <;> rfl
  | rat p a b =>
    cases w with
    | nan => rfl
    | inf q => cases q <;> rfl
    | rat q c d =>
      rcases lt_trichotomy (signedNat p a * d) (signedNat q c * b) with h | h | h
      · simp [FVal.lt, FVal.eq, FVal.isNaN, h, h.ne, h.le]
      · simp [FVal.lt, FVal.eq, FVal.isNaN, h]
      · simp [FVal.lt, FVal.eq, FVal.isNaN, h, h.ne', h.le]

/-- Settles O51: finite values by their rationals, the exclusion for any two values. -/
theorem compareOrder : Obligations.CompareOrder := by
  refine ⟨fun p q a b c d hb hd => ⟨?_, ?_, rfl, rfl⟩, ⟨rfl, fun p q => decide_eq_true_iff⟩,
    fun _ _ => FVal.relation_exclusive _ _, fun _ _ => FVal.relation_exclusive _ _⟩
  · rw [FVal.lt_rat, signedQuot_lt_iff hb hd]
  · rw [FVal.eq_rat, signedQuot_eq_iff hb hd]

end Sys2Proof.Machine
end

section
/-! The conversions (rules R293, R304 to R309): what rounding to an integer gives in each mode, and the
instructions that end in it. -/

namespace Sys2Proof.Machine

/-! ## Rounding a quotient to an integer (rule R308) -/

/-- The quotient and remainder that rounding a quotient looks at. -/
theorem roundQuotient_spec (n : Nat) {d : Nat} (hd : d ≠ 0) : ∃ q r, r < d ∧ n = q * d + r ∧
    ∀ rm p, roundQuotient rm p n d = q + if roundsAway rm p q r d then 1 else 0 :=
  ⟨n / d, n % d, Nat.mod_lt n (Nat.pos_of_ne_zero hd), (Nat.div_add_mod' n d).symm, fun _ _ => rfl⟩

/-- Rounding down gives the floor: of a negative quotient, one more in magnitude if there is a remainder. -/
theorem signedNat_roundQuotient_down (p : Bool) (n : Nat) {d : Nat} (hd : d ≠ 0) :
    signedNat p (roundQuotient .down p n d) = ⌊signedQuot p n d⌋ := by
  have hpos : (0 : ℚ) < d := by positivity
  obtain ⟨q, r, hr, rfl, hround⟩ := roundQuotient_spec n hd
  rw [hround, eq_comm, Int.floor_eq_iff, signedQuot_eq_div, le_div_iff₀ hpos, div_lt_iff₀ hpos]
  norm_cast
  have hrd : (r : ℤ) < d := by exact_mod_cast hr
  cases p with
  | false =>
    have hhi : (q * d + r : ℤ) < (q + 1) * d := by linarith
    simpa [signedNat, roundsAway] using hhi
  | true =>
    rcases Nat.eq_zero_or_pos r with rfl | h
    · have hhi : -(q * d : ℤ) < (-q + 1) * d := by linarith
      simpa [signedNat, roundsAway] using hhi
    · have hrpos : (0 : ℤ) < r := by exact_mod_cast h
      have haway : roundsAway .down true q r d = true := by simp [roundsAway, h.ne']
      simp only [haway, signedNat, if_true]
      push_cast
      constructor <;> linarith

theorem roundQuotient_up (p : Bool) (n d : Nat) : roundQuotient .up p n d = roundQuotient .down (!p) n d := rfl

theorem roundQuotient_towardZero (p : Bool) (n d : Nat) :
    roundQuotient .towardZero p n d = roundQuotient (if p then .up else .down) p n d := by
  cases p <;> simp [roundQuotient, roundsAway]

/-- Rounding up mirrors rounding down, and gives the ceiling. -/
theorem signedNat_roundQuotient_up (p : Bool) (n : Nat) {d : Nat} (hd : d ≠ 0) :
    signedNat p (roundQuotient .up p n d) = ⌈signedQuot p n d⌉ := by
  have h := signedNat_roundQuotient_down (!p) n hd
  rw [signedNat_neg, signedQuot_neg, Int.floor_neg, neg_inj] at h
  rw [roundQuotient_up, h]

theorem signedNat_roundQuotient_towardZero (p : Bool) (n : Nat) {d : Nat} (hd : d ≠ 0) :
    signedNat p (roundQuotient .towardZero p n d) = if p then ⌈signedQuot p n d⌉ else ⌊signedQuot p n d⌋ := by
  rw [roundQuotient_towardZero]
  cases p with
  | false => exact signedNat_roundQuotient_down false n hd
  | true => exact signedNat_roundQuotient_up true n hd

/-- The distance of signed quotients of one sign is that of their magnitudes. -/
theorem abs_signedQuot_sub (p : Bool) (a b c d : Nat) :
    |signedQuot p a b - signedQuot p c d| = |(a : ℚ) / b - (c : ℚ) / d| := by
  cases p with
  | false => rfl
  | true => rw [← abs_neg]; simp [signedQuot]; ring_nf

/-- Rounding to nearest stays within a half, and at a half it is even. -/
theorem roundQuotient_nearestEven (p : Bool) (n : Nat) {d : Nat} (hd : d ≠ 0) :
    |(roundQuotient .nearestEven p n d : ℚ) - (n : ℚ) / d| ≤ 1 / 2 ∧
    (|(roundQuotient .nearestEven p n d : ℚ) - (n : ℚ) / d| = 1 / 2 →
      roundQuotient .nearestEven p n d % 2 = 0) := by
  have hpos : (0 : ℚ) < d := by positivity
  obtain ⟨q, r, hr, rfl, hround⟩ := roundQuotient_spec n hd
  have hrd : (r : ℚ) < d := by exact_mod_cast hr
  have hsplit : ((q * d + r : ℕ) : ℚ) / d = q + r / d := by push_cast; field_simp
  rw [hround, hsplit]
  by_cases haway : roundsAway .nearestEven p q r d
  · have hdist : |((q + 1 : ℕ) : ℚ) - (q + r / d)| = 1 - r / d := by
      rw [abs_of_nonneg] <;> push_cast
      · ring
      · have := (div_lt_one hpos).2 hrd
        linarith
    rw [if_pos haway, hdist]
    simp only [roundsAway, Bool.or_eq_true, Bool.and_eq_true, decide_eq_true_eq] at haway
    have hhalf : (d : ℚ) ≤ 2 * r := by exact_mod_cast (show d ≤ 2 * r by omega)
    refine ⟨?_, fun h => ?_⟩
    · have : (1 : ℚ) / 2 ≤ r / d := by rw [div_le_div_iff₀ two_pos hpos]; linarith
      linarith
    · have : (r : ℚ) / d = 1 / 2 := by linarith
      rw [div_eq_div_iff hpos.ne' two_ne_zero] at this
      have : r * 2 = 1 * d := by exact_mod_cast this
      omega
  · have hdist : |((q + 0 : ℕ) : ℚ) - (q + r / d)| = r / d := by
      rw [abs_of_nonpos] <;> push_cast
      · ring
      · have : (0 : ℚ) ≤ r / d := by positivity
        linarith
    rw [if_neg haway, hdist]
    simp only [roundsAway, Bool.or_eq_true, Bool.and_eq_true, decide_eq_true_eq] at haway
    have hhalf : 2 * (r : ℚ) ≤ d := by exact_mod_cast (show 2 * r ≤ d by omega)
    refine ⟨?_, fun h => ?_⟩
    · rw [div_le_div_iff₀ hpos two_pos]; linarith
    · rw [div_eq_div_iff hpos.ne' two_ne_zero] at h
      have : r * 2 = 1 * d := by exact_mod_cast h
      omega

/-- A rational is rounded to the integer its mode names. -/
theorem roundInt_rat (rm : RoundMode) (p : Bool) (n : Nat) {d : Nat} (hd : d ≠ 0) :
    ∃ r : Int, FVal.roundInt rm (.rat p n d) = some r ∧
    (rm = .down → r = ⌊signedQuot p n d⌋) ∧ (rm = .up → r = ⌈signedQuot p n d⌉) ∧
    (rm = .towardZero → r = if p then ⌈signedQuot p n d⌉ else ⌊signedQuot p n d⌋) ∧
    (rm = .nearestEven → |(r : ℚ) - signedQuot p n d| ≤ 1 / 2 ∧
      (|(r : ℚ) - signedQuot p n d| = 1 / 2 → r % 2 = 0)) := by
  refine ⟨_, rfl, ?_, ?_, ?_, ?_⟩ <;> rintro rfl
  · exact signedNat_roundQuotient_down p n hd
  · exact signedNat_roundQuotient_up p n hd
  · exact signedNat_roundQuotient_towardZero p n hd
  · have hdist := abs_signedQuot_sub p (roundQuotient .nearestEven p n d) 1 n d
    obtain ⟨hle, heven⟩ := roundQuotient_nearestEven p n hd
    rw [signedQuot_eq_div, Nat.cast_one, div_one, div_one] at hdist
    rw [hdist]
    refine ⟨hle, fun h => ?_⟩
    have := heven h
    cases p <;> simp only [signedNat] <;> omega

/-! ## The word of a conversion (rules R308, R309) -/

theorem toWord_of_range {rm : RoundMode} {v : FVal} {r : Int} (h : FVal.roundInt rm v = some r)
    (hlo : -2147483648 ≤ r) (hhi : r ≤ 2147483647) : ∃ w, toWord rm v = some w ∧ w.toInt = r := by
  refine ⟨BitVec.ofInt 32 r, ?_, toInt_ofInt_of_range hlo (by omega)⟩
  simp [toWord, h, outsideSigned32_of_between hlo hhi]

theorem toWord_of_outside {rm : RoundMode} {v : FVal}
    (h : ∀ r, FVal.roundInt rm v = some r → r < -2147483648 ∨ 2147483647 < r) : toWord rm v = none := by
  unfold toWord
  split
  · rfl
  · next r hr => exact if_pos ((outsideSigned32_iff r).2 (h r hr))

/-- A conversion to an integer by a usable coprocessor 1 leaves its word, or a draw. -/
theorem exec_word {s : State} {i : Instr} {fd : Reg} {r : Option Word} (hgate : s.gate 1 = none)
    (hi : exec i s = s.onCop 1 (s.finishW fd r)) :
    ∃ t, exec i s = .next t ∧ After s t {} ∧ Frame s t [.fpr fd, .draws] ∧ ∀ w, r = some w → t.f fd = w := by
  rw [hi, onCop_of_gate hgate]
  exact finishW_spec s fd r

theorem onCop_onEven_of_even {s : State} {r : Reg} (h : evenReg r = true) (k : Result) :
    s.onCop 1 (State.onEven [r] k) = s.onCop 1 k := by simp [State.onEven, h]

/-- Settles O49: the roundings to an integer, and each conversion's end. -/
theorem fpConversions : Obligations.FpConversions := by
  refine ⟨fun rm p n d hd => roundInt_rat rm p n hd, fun rm v => ?_, fun s rm a x h => ?_,
    fun s fd fs hgate => ⟨fun hd => ?_, exec_single hgate rfl, exec_word hgate rfl, fun hs => ?_⟩⟩
  · cases v <;> simp [FVal.roundInt]
  · rw [fp_ieee754 s h]
    exact ⟨rfl, rfl, rfl, rfl, fun _ => toWord_of_range, toWord_of_outside, fun _ => toWord_of_range,
      toWord_of_outside⟩
  · have heven : [fd].all evenReg = true := by simp [hd]
    exact ⟨exec_double hgate heven rfl, exec_double hgate heven rfl⟩
  · exact ⟨exec_single hgate (onCop_onEven_of_even hs _), exec_word hgate (onCop_onEven_of_even hs _)⟩

end Sys2Proof.Machine
end

section
/-! Rounding to a format (rule R291): the magnitudes of a format in order, the two of them between which a rational
lies, and which of them each mode takes. -/

namespace Sys2Proof.Machine

/-! ## The magnitudes of a format -/

/-- The magnitude, in units, of the bits below the sign bit. It goes on beyond the greatest finite value as if the
exponents did, so that it is strictly increasing. -/
def Format.magnitude (f : Format) (k : Nat) : Nat :=
  if k / 2 ^ f.fracBits = 0 then k % 2 ^ f.fracBits * 2
  else (k % 2 ^ f.fracBits + 2 ^ f.fracBits) * 2 ^ (k / 2 ^ f.fracBits)

/-- An exponent, 1 for a subnormal, and a significand that fits, normalised unless the exponent is 1. -/
structure Format.Canonical (f : Format) (e m : Nat) : Prop where
  exponent : 1 ≤ e
  fits : m < 2 ^ (f.fracBits + 1)
  normal : e = 1 ∨ 2 ^ f.fracBits ≤ m

/-- The bits of an exponent and a significand. -/
def Format.join (f : Format) (e m : Nat) : Nat := (e - 1) * 2 ^ f.fracBits + m

variable {f : Format}

theorem Format.exists_canonical (f : Format) (k : Nat) : ∃ e m, f.Canonical e m ∧ k = f.join e m := by
  have hpos : 0 < 2 ^ f.fracBits := by positivity
  have hdiv := Nat.div_add_mod' k (2 ^ f.fracBits)
  have hmod := Nat.mod_lt k hpos
  rcases Nat.eq_zero_or_pos (k / 2 ^ f.fracBits) with h | h
  · exact ⟨1, k % 2 ^ f.fracBits, ⟨le_rfl, by rw [pow_succ]; omega, .inl rfl⟩, by simp only [join, h] at *; omega⟩
  · refine ⟨k / 2 ^ f.fracBits, k % 2 ^ f.fracBits + 2 ^ f.fracBits, ⟨h, by rw [pow_succ]; omega, .inr (by omega)⟩, ?_⟩
    rw [join, Nat.sub_mul]
    have := Nat.mul_le_mul_right (2 ^ f.fracBits) h
    omega

theorem Format.magnitude_join {e m : Nat} (h : f.Canonical e m) : f.magnitude (f.join e m) = m * 2 ^ e := by
  obtain ⟨hexp, hfits, hnormal⟩ := h
  have hpos : 0 < 2 ^ f.fracBits := by positivity
  rw [pow_succ] at hfits
  rcases Nat.lt_or_ge m (2 ^ f.fracBits) with hm | hm
  · obtain rfl : e = 1 := hnormal.resolve_right (by omega)
    simp [magnitude, join, Nat.div_eq_of_lt hm, Nat.mod_eq_of_lt hm]
  · obtain ⟨a, rfl⟩ := Nat.exists_eq_add_of_le hm
    obtain ⟨e, rfl⟩ := Nat.exists_eq_add_of_le hexp
    have ha : a < 2 ^ f.fracBits := by omega
    have hjoin : f.join (1 + e) (2 ^ f.fracBits + a) = a + (1 + e) * 2 ^ f.fracBits := by
      rw [join, Nat.add_sub_cancel_left]; ring
    rw [magnitude, hjoin, Nat.add_mul_div_right _ _ hpos, Nat.div_eq_of_lt ha, Nat.add_mul_mod_self_right,
      Nat.mod_eq_of_lt ha, if_neg (by omega), zero_add, Nat.add_comm a]

/-- The magnitude after a canonical one is one significand up, also where that carries into the exponent. -/
theorem Format.magnitude_join_succ {e m : Nat} (h : f.Canonical e m) :
    f.magnitude (f.join e m + 1) = (m + 1) * 2 ^ e := by
  obtain ⟨hexp, hfits, hnormal⟩ := h
  rcases Nat.lt_or_ge (m + 1) (2 ^ (f.fracBits + 1)) with hm | hm
  · have := magnitude_join (f := f) (e := e) (m := m + 1) ⟨hexp, hm, by omega⟩
    rwa [join, ← Nat.add_assoc] at this
  · obtain hm : m + 1 = 2 ^ f.fracBits * 2 := by rw [pow_succ] at *; omega
    obtain ⟨e, rfl⟩ := Nat.exists_eq_add_of_le hexp
    have hcarry : f.join (1 + e) m + 1 = f.join (1 + e + 1) (2 ^ f.fracBits) := by
      simp only [join, Nat.add_sub_cancel_left, Nat.add_assoc, hm]; ring
    rw [hcarry, magnitude_join ⟨by omega, by rw [pow_succ]; omega, .inr le_rfl⟩, hm, pow_succ]
    ring

theorem Format.magnitude_strictMono (f : Format) : StrictMono f.magnitude := by
  refine strictMono_nat_of_lt_succ fun k => ?_
  obtain ⟨e, m, h, rfl⟩ := f.exists_canonical k
  rw [magnitude_join h, magnitude_join_succ h]
  exact Nat.mul_lt_mul_of_pos_right (Nat.lt_succ_self m) (by positivity)

theorem Format.magnitude_zero (f : Format) : f.magnitude 0 = 0 := by simp [magnitude]

/-- A significand that fits, under any exponent, is a magnitude: it is normalised as far as the exponent allows. -/
theorem Format.exists_magnitude (m : Nat) (hm : m < 2 ^ (f.fracBits + 1)) {e : Nat} (he : 1 ≤ e) :
    ∃ k, f.magnitude k = m * 2 ^ e := by
  induction e, he using Nat.le_induction generalizing m with
  | base => exact ⟨_, magnitude_join ⟨le_rfl, hm, .inl rfl⟩⟩
  | succ e he ih =>
    rcases Nat.lt_or_ge m (2 ^ f.fracBits) with h | h
    · obtain ⟨k, hk⟩ := ih (m * 2) (by rw [pow_succ]; omega)
      exact ⟨k, by rw [hk, pow_succ]; ring⟩
    · exact ⟨_, magnitude_join ⟨by omega, hm, .inr h⟩⟩

/-! ## The values of bit patterns -/

theorem Format.unit_ne_zero (f : Format) : f.unit ≠ 0 := by unfold unit; positivity

theorem Format.infBits_lt (f : Format) : f.infBits < 2 ^ (f.fracBits + f.expBits) := by
  rw [infBits, pow_add, Nat.mul_comm (2 ^ f.fracBits)]
  exact Nat.mul_lt_mul_of_pos_right (Nat.sub_lt (by positivity) one_pos) (by positivity)

theorem Format.signBit_fields (f : Format) (p : Bool) {k : Nat} (hk : k < 2 ^ (f.fracBits + f.expBits)) :
    (f.signBit p + k) % 2 ^ f.fracBits = k % 2 ^ f.fracBits ∧
    (f.signBit p + k) / 2 ^ f.fracBits % 2 ^ f.expBits = k / 2 ^ f.fracBits ∧
    (f.signBit p + k) / 2 ^ (f.fracBits + f.expBits) % 2 = p.toNat := by
  have hpos : 0 < 2 ^ f.fracBits := by positivity
  have hlt : k / 2 ^ f.fracBits < 2 ^ f.expBits := Nat.div_lt_of_lt_mul (by rwa [← pow_add])
  cases p with
  | false => simp [signBit, Nat.mod_eq_of_lt hlt, Nat.div_eq_of_lt hk]
  | true =>
    refine ⟨?_, ?_, ?_⟩
    · simp [signBit, pow_add]
    · rw [signBit, if_pos rfl, pow_add, Nat.mul_add_div hpos, Nat.add_mod_left, Nat.mod_eq_of_lt hlt]
    · simp [signBit, Nat.div_eq_of_lt hk]

theorem Format.infBits_le_iff (f : Format) (k : Nat) :
    f.infBits ≤ k ↔ 2 ^ f.expBits - 1 ≤ k / 2 ^ f.fracBits := by
  rw [infBits, Nat.le_div_iff_mul_le (by positivity)]

theorem Format.value_finite (p : Bool) {k : Nat} (hk : k < f.infBits) :
    f.value (f.signBit p + k) = .rat p (f.magnitude k) f.unit := by
  obtain ⟨hfrac, hexp, hneg⟩ := f.signBit_fields p (hk.trans f.infBits_lt)
  have hne : k / 2 ^ f.fracBits ≠ 2 ^ f.expBits - 1 := fun h => by
    have := (f.infBits_le_iff k).2 h.ge
    omega
  simp only [value, hfrac, hexp, hneg, if_neg hne, magnitude]
  cases p <;> split <;> simp

theorem Format.value_infinite (f : Format) (p : Bool) : f.value (f.signBit p + f.infBits) = .inf p := by
  obtain ⟨hfrac, hexp, hneg⟩ := f.signBit_fields p f.infBits_lt
  have hdiv : f.infBits / 2 ^ f.fracBits = 2 ^ f.expBits - 1 := Nat.mul_div_cancel _ (by positivity)
  have hmod : f.infBits % 2 ^ f.fracBits = 0 := Nat.mul_mod_left _ _
  simp only [value, hfrac, hexp, hneg, hdiv, hmod]
  cases p <;> simp

theorem Format.value_nan (p : Bool) {k : Nat} (hk : f.infBits < k) (hlt : k < 2 ^ (f.fracBits + f.expBits)) :
    f.value (f.signBit p + k) = .nan := by
  obtain ⟨hfrac, hexp, hneg⟩ := f.signBit_fields p hlt
  have hdiv : k / 2 ^ f.fracBits = 2 ^ f.expBits - 1 := by
    have h1 := (f.infBits_le_iff k).1 hk.le
    have h2 : k / 2 ^ f.fracBits < 2 ^ f.expBits := Nat.div_lt_of_lt_mul (by rwa [← pow_add])
    omega
  refine value_of_fields f _ (hexp.trans hdiv) ?_
  rw [hfrac]
  intro h
  have := Nat.div_add_mod' k (2 ^ f.fracBits)
  rw [h, hdiv, ← infBits] at this
  omega

/-! ## Rounding a magnitude -/

/-- The rational `n / d` lies `r / d` units above the magnitude `k`, of a gap of `g / d` up to the next one. -/
structure Format.Bracket (f : Format) (n d k r g : Nat) : Prop where
  within : r < g
  low : n * f.unit = f.magnitude k * d + r
  high : f.magnitude (k + 1) * d = f.magnitude k * d + g

/-- The bits of a magnitude, with the overflow of rule R291. -/
def Format.clamp (f : Format) (toInf : Bool) (k : Nat) : Nat :=
  if k < f.infBits then k else if toInf then f.infBits else f.infBits - 1

/-- The exponent rounding works with leaves a significand that fits. -/
theorem Format.canonical_quotient (f : Format) (y : Nat) :
    f.Canonical (max 1 (Nat.log2 y - f.fracBits)) (y / 2 ^ max 1 (Nat.log2 y - f.fracBits)) := by
  have hlt : y < 2 ^ (Nat.log2 y + 1) := Nat.lt_log2_self
  rcases Nat.lt_or_ge (f.fracBits + 1) (Nat.log2 y) with h | h
  · rw [max_eq_right (by omega)]
    have hexp : f.fracBits + (Nat.log2 y - f.fracBits) = Nat.log2 y := by omega
    refine ⟨by omega, ?_, .inr ?_⟩
    · rwa [Nat.div_lt_iff_lt_mul (by positivity), ← pow_add, Nat.add_right_comm, hexp]
    · rw [Nat.le_div_iff_mul_le (by positivity), ← pow_add, hexp]
      exact Nat.log2_self_le (by rintro rfl; simp at h)
  · rw [max_eq_left (by omega)]
    refine ⟨le_rfl, ?_, .inl rfl⟩
    rw [Nat.div_lt_iff_lt_mul (by positivity), ← pow_add]
    exact hlt.trans_le (Nat.pow_le_pow_right two_pos (by omega))

theorem Format.join_mod_two (hf : f.fracBits ≠ 0) (e m : Nat) : f.join e m % 2 = m % 2 := by
  obtain ⟨w, hw⟩ := Nat.exists_eq_succ_of_ne_zero hf
  rw [join, hw, pow_succ, ← Nat.mul_assoc]
  omega

/-- Rounding looks at the bracket of the rational: the magnitude below, its parity, and the remainder of the gap. -/
theorem Format.exists_bracket (hf : f.fracBits ≠ 0) (n : Nat) {d : Nat} (hd : d ≠ 0) :
    ∃ k r g, f.Bracket n d k r g ∧ ∀ rm p, f.roundMagnitude rm p n d =
      f.clamp (overflowsToInf rm p) (k + if roundsAway rm p k r g then 1 else 0) := by
  have hcan := f.canonical_quotient (n * f.unit / d)
  have hround (rm p) : f.roundMagnitude rm p n d =
      f.clamp (overflowsToInf rm p) (f.join (max 1 (Nat.log2 (n * f.unit / d) - f.fracBits))
        (roundQuotient rm p (n * f.unit) (d * 2 ^ max 1 (Nat.log2 (n * f.unit / d) - f.fracBits)))) := rfl
  generalize max 1 (Nat.log2 (n * f.unit / d) - f.fracBits) = e at hcan hround
  have hpos : d * 2 ^ e ≠ 0 := by positivity
  obtain ⟨q, r, hr, hn, hq⟩ := roundQuotient_spec (n * f.unit) hpos
  have hquot : n * f.unit / d / 2 ^ e = q := by
    rw [Nat.div_div_eq_div_mul, hn, Nat.mul_comm q, Nat.mul_add_div (Nat.pos_of_ne_zero hpos), Nat.div_eq_of_lt hr,
      Nat.add_zero]
  rw [hquot] at hcan
  refine ⟨f.join e q, r, d * 2 ^ e, ⟨hr, ?_, ?_⟩, fun rm p => ?_⟩
  · rw [hn, magnitude_join hcan]; ring
  · rw [magnitude_join hcan, magnitude_join_succ hcan]; ring
  · have haway : roundsAway rm p (f.join e q) r (d * 2 ^ e) = roundsAway rm p q r (d * 2 ^ e) := by
      cases rm <;> simp [roundsAway, join_mod_two hf]
    rw [hround, hq, haway, join, join, Nat.add_assoc]

theorem Format.Bracket.den_pos {n d k r g : Nat} (h : f.Bracket n d k r g) : 0 < d := by
  obtain ⟨hwithin, _, hhigh⟩ := h
  refine Nat.pos_of_ne_zero ?_
  rintro rfl
  omega

theorem Format.magnitude_mul_le {i j : Nat} (h : i ≤ j) (d : Nat) : f.magnitude i * d ≤ f.magnitude j * d :=
  Nat.mul_le_mul_right d (f.magnitude_strictMono.monotone h)

theorem Format.magnitude_mul_lt {i j d : Nat} (h : i < j) (hd : 0 < d) : f.magnitude i * d < f.magnitude j * d :=
  Nat.mul_lt_mul_of_pos_right (f.magnitude_strictMono h) hd

theorem Format.Bracket.lt_magnitude_iff {n d k r g : Nat} (h : f.Bracket n d k r g) (j : Nat) :
    n * f.unit < f.magnitude j * d ↔ k < j := by
  obtain ⟨hwithin, hlow, hhigh⟩ := h
  rcases Nat.lt_or_ge k j with hj | hj
  · have := magnitude_mul_le (f := f) (Nat.succ_le_of_lt hj) d
    simp only [Nat.succ_eq_add_one] at this
    omega
  · have := magnitude_mul_le (f := f) hj d
    omega

theorem Format.Bracket.magnitude_lt_iff {n d k r g : Nat} (h : f.Bracket n d k r g) (j : Nat) :
    f.magnitude j * d < n * f.unit ↔ j < k + if r = 0 then 0 else 1 := by
  have hd := h.den_pos
  obtain ⟨hwithin, hlow, hhigh⟩ := h
  rcases Nat.lt_trichotomy j k with hj | rfl | hj
  · have := magnitude_mul_lt (f := f) hj hd
    omega
  · split <;> omega
  · have := magnitude_mul_le (f := f) (Nat.succ_le_of_lt hj) d
    simp only [Nat.succ_eq_add_one] at this
    split <;> omega

/-- A magnitude is bracketed by itself alone. -/
theorem Format.Bracket.of_magnitude {n d k r g j : Nat} (h : f.Bracket n d k r g)
    (hj : n * f.unit = f.magnitude j * d) : k = j ∧ r = 0 := by
  have hle := (h.lt_magnitude_iff j).not.1 hj.not_lt
  have hge := (h.magnitude_lt_iff j).not.1 hj.symm.not_lt
  split at hge <;> omega

theorem Format.clamp_le (f : Format) (toInf : Bool) (k : Nat) : f.clamp toInf k ≤ f.infBits := by
  unfold clamp
  split_ifs <;> omega

theorem Format.roundMagnitude_le (f : Format) (rm : RoundMode) (p : Bool) (n d : Nat) :
    f.roundMagnitude rm p n d ≤ f.infBits := f.clamp_le _ _

/-- A representable magnitude is rounded to itself in every mode. -/
theorem Format.roundMagnitude_of_magnitude (hf : f.fracBits ≠ 0) {n d j : Nat} (hd : d ≠ 0) (hj : j < f.infBits)
    (h : n * f.unit = f.magnitude j * d) (rm : RoundMode) (p : Bool) : f.roundMagnitude rm p n d = j := by
  obtain ⟨k, r, g, hb, hround⟩ := exists_bracket hf n hd
  obtain ⟨rfl, rfl⟩ := hb.of_magnitude h
  have hg : g ≠ 0 := hb.within.ne'
  have hstay : roundsAway rm p k 0 g = false := by cases rm <;> simp [roundsAway, hg.symm]
  simp [hround, hstay, clamp, hj]

theorem signedNat_mul (p : Bool) (n m : Nat) : signedNat p n * m = signedNat p (n * m) := by
  cases p <;> simp [signedNat]

/-! ## Directed rounding and the order of values -/

theorem FVal.lt_neg_neg (v w : FVal) : FVal.lt (FVal.neg v) (FVal.neg w) = FVal.lt w v := by
  cases v with
  | nan => cases w <;> rfl
  | inf p => cases w with
    | nan => rfl
    | inf q => cases p <;> cases q <;> rfl
    | rat q c d => rfl
  | rat p a b => cases w with
    | nan => rfl
    | inf q => cases q <;> rfl
    | rat q c d => simp [FVal.neg, FVal.lt, signedNat_neg]

theorem Format.neg_value (p : Bool) {j : Nat} (hj : j ≤ f.infBits) :
    FVal.neg (f.value (f.signBit p + j)) = f.value (f.signBit (!p) + j) := by
  rcases hj.lt_or_eq with hj | rfl
  · rw [value_finite p hj, value_finite _ hj, FVal.neg]
  · rw [value_infinite, value_infinite, FVal.neg]

theorem Format.roundMagnitude_up (f : Format) (p : Bool) (n d : Nat) :
    f.roundMagnitude .up p n d = f.roundMagnitude .down (!p) n d := rfl

theorem Format.roundMagnitude_towardZero (f : Format) (p : Bool) (n d : Nat) :
    f.roundMagnitude .towardZero p n d = f.roundMagnitude (if p then .up else .down) p n d := by
  cases p <;> simp [roundMagnitude, roundQuotient, roundsAway, overflowsToInf]

/-- Toward zero it keeps the magnitude below, away from zero it takes the one above unless that below is exact. -/
theorem Format.exists_bracket_down (hf : f.fracBits ≠ 0) (n : Nat) {d : Nat} (hd : d ≠ 0) :
    ∃ k r g, f.Bracket n d k r g ∧ f.roundMagnitude .down false n d = min k (f.infBits - 1) ∧
      f.roundMagnitude .down true n d = min (k + if r = 0 then 0 else 1) f.infBits := by
  obtain ⟨k, r, g, hb, hround⟩ := exists_bracket hf n hd
  refine ⟨k, r, g, hb, ?_, ?_⟩
  · rw [hround]
    simp only [roundsAway, overflowsToInf, Bool.and_false, Bool.false_eq_true, if_false, clamp]
    split <;> omega
  · rw [hround]
    simp only [roundsAway, overflowsToInf, Bool.and_true, decide_eq_true_eq, if_true, clamp]
    split_ifs <;> omega

theorem Format.lt_magnitude_iff (hf : f.fracBits ≠ 0) {n d j : Nat} (hd : d ≠ 0) (hj : j < f.infBits) :
    n * f.unit < f.magnitude j * d ↔ f.roundMagnitude .down false n d < j := by
  obtain ⟨k, r, g, hb, hin, -⟩ := exists_bracket_down hf n hd
  rw [hb.lt_magnitude_iff, hin]
  omega

theorem Format.magnitude_lt_iff (hf : f.fracBits ≠ 0) {n d j : Nat} (hd : d ≠ 0) (hj : j < f.infBits) :
    f.magnitude j * d < n * f.unit ↔ j < f.roundMagnitude .down true n d := by
  obtain ⟨k, r, g, hb, -, hout⟩ := exists_bracket_down hf n hd
  rw [hb.magnitude_lt_iff, hout]
  omega

theorem Format.roundMagnitude_down_false_lt (hf : f.fracBits ≠ 0) (he : f.infBits ≠ 0) (n : Nat) {d : Nat}
    (hd : d ≠ 0) : f.roundMagnitude .down false n d < f.infBits := by
  obtain ⟨k, r, g, -, hin, -⟩ := exists_bracket_down hf n hd
  omega

/-- Rounding down names the values above a rational: those above what it is rounded to. -/
theorem Format.lt_value_iff (hf : f.fracBits ≠ 0) (he : f.infBits ≠ 0) (p q : Bool) (n : Nat) {d j : Nat}
    (hd : d ≠ 0) (hj : j ≤ f.infBits) : FVal.lt (.rat p n d) (f.value (f.signBit q + j)) = true ↔
      signedNat p (f.roundMagnitude .down p n d) < signedNat q j := by
  have hfin := roundMagnitude_down_false_lt hf he n hd
  have hle := f.roundMagnitude_le .down true n d
  rcases hj.lt_or_eq with hj | rfl
  · rw [value_finite q hj, FVal.lt_rat, signedNat_mul, signedNat_mul]
    have hzero := magnitude_lt_iff (n := n) hf hd (Nat.pos_of_ne_zero he)
    have hlt := lt_magnitude_iff (n := n) hf hd hj
    have hgt := magnitude_lt_iff (n := n) hf hd hj
    have hpos : 0 < f.magnitude j * d ↔ 0 < j := by
      have := f.magnitude_strictMono.lt_iff_lt (a := 0) (b := j)
      rw [f.magnitude_zero] at this
      rw [Nat.mul_pos_iff_of_pos_right (Nat.pos_of_ne_zero hd), this]
    rw [f.magnitude_zero, Nat.zero_mul] at hzero
    cases p <;> cases q <;> simp only [signedNat, Bool.false_eq_true, if_true, if_false] <;> omega
  · rw [value_infinite]
    cases p <;> cases q <;> simp [FVal.lt, signedNat] <;> omega

/-- Rounding up names the values below, the mirror image. -/
theorem Format.value_lt_iff (hf : f.fracBits ≠ 0) (he : f.infBits ≠ 0) (p q : Bool) (n : Nat) {d j : Nat}
    (hd : d ≠ 0) (hj : j ≤ f.infBits) : FVal.lt (f.value (f.signBit q + j)) (.rat p n d) = true ↔
      signedNat q j < signedNat p (f.roundMagnitude .up p n d) := by
  have h := lt_value_iff hf he (!p) (!q) n hd hj
  rw [← neg_value q hj, ← FVal.neg, FVal.lt_neg_neg, ← roundMagnitude_up, signedNat_neg, signedNat_neg,
    neg_lt_neg_iff] at h
  exact h

/-- The order of the values of a format is that of their signed magnitude bits. -/
theorem Format.value_lt_value_iff (hf : f.fracBits ≠ 0) (he : f.infBits ≠ 0) (p q : Bool) {i j : Nat}
    (hi : i ≤ f.infBits) (hj : j ≤ f.infBits) : FVal.lt (f.value (f.signBit p + i)) (f.value (f.signBit q + j)) = true ↔
      signedNat p i < signedNat q j := by
  have hunit := f.unit_ne_zero
  rcases hi.lt_or_eq with hi | rfl
  · rw [value_finite p hi, lt_value_iff hf he p q _ hunit hj, roundMagnitude_of_magnitude hf hunit hi rfl]
  · rw [value_infinite]
    rcases hj.lt_or_eq with hj | rfl
    · rw [value_finite q hj]
      cases p <;> cases q <;> simp [FVal.lt, signedNat] <;> omega
    · rw [value_infinite]
      cases p <;> cases q <;> simp [FVal.lt, signedNat]; omega

/-! ## Rounding to nearest -/

/-- The nearest magnitude is one end of the bracket: no magnitude is nearer, and one as near leaves it even. -/
theorem Format.Bracket.nearest {n d k r g b : Nat} (h : f.Bracket n d k r g)
    (hb : b = k + if 2 * r > g ∨ 2 * r = g ∧ k % 2 = 1 then 1 else 0) (j : Nat) :
    ((f.magnitude b * d : ℕ) - (n * f.unit : ℕ) : ℤ).natAbs ≤
      ((f.magnitude j * d : ℕ) - (n * f.unit : ℕ) : ℤ).natAbs ∧
    (((f.magnitude b * d : ℕ) - (n * f.unit : ℕ) : ℤ).natAbs =
      ((f.magnitude j * d : ℕ) - (n * f.unit : ℕ) : ℤ).natAbs → b ≠ j → b % 2 = 0) := by
  have hd := h.den_pos
  obtain ⟨hwithin, hlow, hhigh⟩ := h
  have hbelow (hj : j < k) := magnitude_mul_lt (f := f) hj hd
  have habove (hj : k + 1 < j) := magnitude_mul_lt (f := f) hj hd
  have hside : j < k ∨ j = k ∨ j = k + 1 ∨ k + 1 < j := by omega
  rcases hside with hj | rfl | rfl | hj
  · have := hbelow hj
    split_ifs at hb <;> subst hb <;> omega
  · split_ifs at hb <;> subst hb <;> omega
  · split_ifs at hb <;> subst hb <;> omega
  · have := habove hj
    split_ifs at hb <;> subst hb <;> omega

/-- The distances of two values of the format from a rational, over a common denominator. -/
theorem abs_signedQuot_sub_eq (p q : Bool) (a n : Nat) {u d : Nat} (hu : u ≠ 0) (hd : d ≠ 0) :
    |signedQuot q a u - signedQuot p n d| =
      ((signedNat q (a * d) - signedNat p (n * u)).natAbs : ℚ) / ((u * d : ℕ) : ℚ) := by
  have hu' : (u : ℚ) ≠ 0 := Nat.cast_ne_zero.2 hu
  have hd' : (d : ℚ) ≠ 0 := Nat.cast_ne_zero.2 hd
  rw [signedQuot_eq_div, signedQuot_eq_div, div_sub_div _ _ hu' hd', abs_div, ← signedNat_mul, ← signedNat_mul,
    Nat.cast_natAbs]
  push_cast
  rw [abs_of_nonneg (by positivity : (0 : ℚ) ≤ u * d), mul_comm (u : ℚ) (signedNat p n : ℚ)]

theorem Format.exists_bracket_nearest (hf : f.fracBits ≠ 0) (n : Nat) {d : Nat} (hd : d ≠ 0) :
    ∃ k r g b, f.Bracket n d k r g ∧ b = k + (if 2 * r > g ∨ 2 * r = g ∧ k % 2 = 1 then 1 else 0) ∧
      ∀ p, f.roundMagnitude .nearestEven p n d = min b f.infBits := by
  obtain ⟨k, r, g, hb, hround⟩ := exists_bracket hf n hd
  refine ⟨k, r, g, _, hb, rfl, fun p => ?_⟩
  simp only [hround, roundsAway, Bool.or_eq_true, Bool.and_eq_true, decide_eq_true_eq, overflowsToInf, clamp, if_true]
  split_ifs <;> omega

/-- No finite value of the format, of either sign, is nearer than the one a rational is rounded to. -/
theorem Format.round_nearest (hf : f.fracBits ≠ 0) (n : Nat) {d : Nat} (hd : d ≠ 0) (p : Bool)
    (hfin : f.roundMagnitude .nearestEven p n d < f.infBits) (q : Bool) (j : Nat) :
    (signedNat p (f.magnitude (f.roundMagnitude .nearestEven p n d) * d) - signedNat p (n * f.unit)).natAbs ≤
      (signedNat q (f.magnitude j * d) - signedNat p (n * f.unit)).natAbs ∧
    ((signedNat p (f.magnitude (f.roundMagnitude .nearestEven p n d) * d) - signedNat p (n * f.unit)).natAbs =
      (signedNat q (f.magnitude j * d) - signedNat p (n * f.unit)).natAbs →
      signedNat p (f.roundMagnitude .nearestEven p n d) ≠ signedNat q j →
      f.roundMagnitude .nearestEven p n d % 2 = 0) := by
  obtain ⟨k, r, g, b, hbr, hb, hround⟩ := exists_bracket_nearest hf n hd
  obtain rfl : f.roundMagnitude .nearestEven p n d = b := by have := hround p; omega
  generalize f.roundMagnitude .nearestEven p n d = b at *
  obtain ⟨hle, heven⟩ := hbr.nearest hb j
  obtain ⟨hle0, heven0⟩ := hbr.nearest hb 0
  have hpos (hj : 0 < j) := magnitude_mul_lt (f := f) hj (Nat.pos_of_ne_zero hd)
  rw [f.magnitude_zero, Nat.zero_mul] at *
  cases p <;> cases q <;> simp only [signedNat, Bool.false_eq_true, if_true, if_false] <;> omega

/-- The greatest finite value has the greatest exponent and significand. -/
theorem Format.join_greatest (h : 3 ≤ 2 ^ f.expBits) :
    f.Canonical (2 ^ f.expBits - 2) (2 ^ (f.fracBits + 1) - 1) ∧
    f.join (2 ^ f.expBits - 2) (2 ^ (f.fracBits + 1) - 1) + 1 = f.infBits := by
  have hone := Nat.one_le_two_pow (n := f.fracBits)
  obtain ⟨a, ha⟩ := Nat.exists_eq_add_of_le' h
  refine ⟨⟨by omega, Nat.sub_lt (by positivity) one_pos, .inr (by omega)⟩, ?_⟩
  simp only [join, infBits, ha, pow_succ, Nat.add_mul, Nat.reduceSubDiff]
  omega

/-- Half a unit beyond the greatest finite value, where rounding to nearest begins to overflow. -/
theorem Format.overflow_threshold {c : Nat} (hc : 2 ^ f.expBits - 2 = c + 1 + (f.bias + f.fracBits)) :
    f.magnitude (f.infBits - 1) + f.magnitude f.infBits = (2 ^ (f.fracBits + 2) - 1) * 2 ^ c * (2 * f.unit) := by
  obtain ⟨hcan, hjoin⟩ := join_greatest (f := f) (by omega)
  obtain ⟨a, ha⟩ := Nat.exists_eq_add_of_le' (Nat.one_le_two_pow (n := f.fracBits + 1))
  have hdouble : 2 ^ (f.fracBits + 2) - 1 = 2 * a + 1 := by rw [pow_succ, ha]; omega
  rw [← hjoin, Nat.add_sub_cancel, magnitude_join hcan, magnitude_join_succ hcan, hc, unit, ha, Nat.add_sub_cancel,
    hdouble, pow_add 2 (c + 1), pow_succ]
  ring

theorem Format.roundMagnitude_nearest_eq_infBits (hf : f.fracBits ≠ 0) (n : Nat) {d : Nat} (hd : d ≠ 0) (p : Bool)
    {c : Nat} (hc : 2 ^ f.expBits - 2 = c + 1 + (f.bias + f.fracBits)) :
    f.roundMagnitude .nearestEven p n d = f.infBits ↔ (2 ^ (f.fracBits + 2) - 1) * 2 ^ c * d ≤ n := by
  have hunit : 0 < 2 * f.unit := Nat.mul_pos two_pos (Nat.pos_of_ne_zero f.unit_ne_zero)
  have hthreshold : (2 ^ (f.fracBits + 2) - 1) * 2 ^ c * d ≤ n ↔
      f.magnitude (f.infBits - 1) * d + f.magnitude f.infBits * d ≤ 2 * (n * f.unit) := by
    rw [← Nat.add_mul, overflow_threshold hc, ← Nat.mul_le_mul_right_iff hunit]
    ring_nf
  obtain ⟨-, hjoin⟩ := join_greatest (f := f) (by omega)
  have hodd : (f.infBits - 1) % 2 = 1 := by
    rw [← hjoin, Nat.add_sub_cancel, join_mod_two hf, pow_succ]
    have := Nat.one_le_two_pow (n := f.fracBits)
    omega
  obtain ⟨k, r, g, b, ⟨hwithin, hlow, hhigh⟩, hb, hround⟩ := exists_bracket_nearest hf n hd
  rw [hround, hthreshold, min_eq_right_iff]
  rcases Nat.lt_trichotomy k (f.infBits - 1) with hk | rfl | hk
  · have := magnitude_mul_le (f := f) (show k + 1 ≤ f.infBits - 1 by omega) d
    have := magnitude_mul_le (f := f) (Nat.sub_le f.infBits 1) d
    split_ifs at hb <;> omega
  · rw [Nat.sub_add_cancel (by omega)] at hhigh
    split_ifs at hb <;> omega
  · have := magnitude_mul_le (f := f) (show f.infBits ≤ k by omega) d
    have := magnitude_mul_le (f := f) (Nat.sub_le f.infBits 1) d
    split_ifs at hb <;> omega

end Sys2Proof.Machine
end

section
/-! Rounding is correct in every mode and in both formats (rule R291): the magnitudes of `Format` read as bit patterns,
whose order and distances are those of the values. -/

namespace Sys2Proof.Machine

/-! ## Sign and magnitude of a bit pattern -/

section
variable {f : Format} {w : Nat}

theorem Format.exists_signBit (hw : w = f.fracBits + f.expBits + 1) (b : BitVec w) :
    ∃ k < 2 ^ (f.fracBits + f.expBits), b.toNat = f.signBit b.msb + k := by
  subst hw
  have hlt := b.isLt
  rw [pow_succ] at hlt
  rw [BitVec.msb_eq_decide, Nat.add_sub_cancel]
  by_cases h : 2 ^ (f.fracBits + f.expBits) ≤ b.toNat
  · exact ⟨b.toNat - 2 ^ (f.fracBits + f.expBits), by omega, by simp [signBit, h]⟩
  · exact ⟨b.toNat, by omega, by simp [signBit, h]⟩

theorem Format.ofNat_signBit (hw : w = f.fracBits + f.expBits + 1) (p : Bool) {k : Nat}
    (hk : k < 2 ^ (f.fracBits + f.expBits)) :
    (BitVec.ofNat w (f.signBit p + k)).toNat = f.signBit p + k ∧ (BitVec.ofNat w (f.signBit p + k)).msb = p := by
  subst hw
  have hlt : f.signBit p + k < 2 ^ (f.fracBits + f.expBits + 1) := by
    rw [pow_succ]
    cases p <;> simp [signBit] <;> omega
  have hnat : (BitVec.ofNat (f.fracBits + f.expBits + 1) (f.signBit p + k)).toNat = f.signBit p + k := by
    rw [BitVec.toNat_ofNat, Nat.mod_eq_of_lt hlt]
  refine ⟨hnat, ?_⟩
  rw [BitVec.msb_eq_decide, hnat, Nat.add_sub_cancel]
  cases p <;> simp [signBit, hk]

/-- The bit patterns that are no NaN: a sign, and magnitude bits up to those of infinity. -/
theorem Format.exists_signBit_le (hw : w = f.fracBits + f.expBits + 1) {b : BitVec w}
    (hb : f.value b.toNat ≠ .nan) : ∃ j ≤ f.infBits, b.toNat = f.signBit b.msb + j := by
  obtain ⟨k, hk, hnat⟩ := exists_signBit hw b
  refine ⟨k, ?_, hnat⟩
  by_contra! hlt
  exact hb (by rw [hnat, value_nan _ hlt hk])

theorem Format.value_finite_inj {p q : Bool} {j n d : Nat} (hj : j ≤ f.infBits)
    (h : f.value (f.signBit p + j) = .rat q n d) : j < f.infBits ∧ q = p ∧ n = f.magnitude j ∧ d = f.unit := by
  rcases hj.lt_or_eq with hj | rfl
  · rw [value_finite p hj] at h
    cases h
    exact ⟨hj, rfl, rfl, rfl⟩
  · rw [value_infinite] at h
    cases h

/-! ## Rounding is correct (rule R291) -/

theorem Format.round_down_correct (hf : f.fracBits ≠ 0) (he : f.infBits ≠ 0) (hw : w = f.fracBits + f.expBits + 1)
    (p : Bool) (n : Nat) {d : Nat} (hd : d ≠ 0) :
    FVal.lt (.rat p n d) (f.value (f.signBit p + f.roundMagnitude .down p n d)) = false ∧
    ∀ c : BitVec w, f.value c.toNat ≠ .nan → FVal.lt (.rat p n d) (f.value c.toNat) = false →
      FVal.lt (f.value (f.signBit p + f.roundMagnitude .down p n d)) (f.value c.toNat) = false := by
  have hle := f.roundMagnitude_le .down p n d
  simp only [← Bool.not_eq_true]
  refine ⟨by simp [lt_value_iff hf he p p n hd hle], fun c hc h => ?_⟩
  obtain ⟨j, hj, hnat⟩ := exists_signBit_le hw hc
  rw [hnat, lt_value_iff hf he p _ n hd hj] at h
  rwa [hnat, value_lt_value_iff hf he _ _ hle hj]

theorem Format.round_up_correct (hf : f.fracBits ≠ 0) (he : f.infBits ≠ 0) (hw : w = f.fracBits + f.expBits + 1)
    (p : Bool) (n : Nat) {d : Nat} (hd : d ≠ 0) :
    FVal.lt (f.value (f.signBit p + f.roundMagnitude .up p n d)) (.rat p n d) = false ∧
    ∀ c : BitVec w, f.value c.toNat ≠ .nan → FVal.lt (f.value c.toNat) (.rat p n d) = false →
      FVal.lt (f.value c.toNat) (f.value (f.signBit p + f.roundMagnitude .up p n d)) = false := by
  have hle := f.roundMagnitude_le .up p n d
  simp only [← Bool.not_eq_true]
  refine ⟨by simp [value_lt_iff hf he p p n hd hle], fun c hc h => ?_⟩
  obtain ⟨j, hj, hnat⟩ := exists_signBit_le hw hc
  rw [hnat, value_lt_iff hf he p _ n hd hj] at h
  rwa [hnat, value_lt_value_iff hf he _ _ hj hle]

/-- Two bit patterns of one format that stand for different rationals have different signed magnitude bits. -/
theorem Format.signedNat_ne_of_signedQuot_ne {p q : Bool} {i j : Nat}
    (h : signedQuot p (f.magnitude i) f.unit ≠ signedQuot q (f.magnitude j) f.unit) :
    signedNat p i ≠ signedNat q j := by
  intro hij
  cases p <;> cases q <;> simp only [signedNat, Bool.false_eq_true, if_true, if_false] at hij
  · obtain rfl : i = j := by omega
    exact h rfl
  · obtain ⟨rfl, rfl⟩ : i = 0 ∧ j = 0 := by omega
    simp [f.magnitude_zero, signedQuot_zero] at h
  · obtain ⟨rfl, rfl⟩ : i = 0 ∧ j = 0 := by omega
    simp [f.magnitude_zero, signedQuot_zero] at h
  · obtain rfl : i = j := by omega
    exact h rfl

theorem Format.round_nearest_correct (hf : f.fracBits ≠ 0) (hw : w = f.fracBits + f.expBits + 1)
    (p : Bool) (n : Nat) {d : Nat} (hd : d ≠ 0) (c : BitVec w) (q : Bool) (a m : Nat) (r : Bool) (e k : Nat)
    (hb : f.value (f.signBit p + f.roundMagnitude .nearestEven p n d) = .rat q a m)
    (hc : f.value c.toNat = .rat r e k) :
    |signedQuot q a m - signedQuot p n d| ≤ |signedQuot r e k - signedQuot p n d| ∧
    (|signedQuot q a m - signedQuot p n d| = |signedQuot r e k - signedQuot p n d| →
      signedQuot q a m ≠ signedQuot r e k → f.roundMagnitude .nearestEven p n d % 2 = 0) := by
  have hunit := f.unit_ne_zero
  have hpos : (0 : ℚ) < ((f.unit * d : ℕ) : ℚ) := by
    have := Nat.mul_ne_zero hunit hd
    positivity
  obtain ⟨j, hj, hnat⟩ := exists_signBit_le hw (b := c) (by rw [hc]; exact fun h => by cases h)
  rw [hnat] at hc
  obtain ⟨-, rfl, rfl, rfl⟩ := value_finite_inj hj hc
  obtain ⟨hfin, rfl, rfl, rfl⟩ := value_finite_inj (f.roundMagnitude_le _ _ _ _) hb
  obtain ⟨hle, heven⟩ := round_nearest hf n hd q hfin c.msb j
  rw [abs_signedQuot_sub_eq q q _ n hunit hd, abs_signedQuot_sub_eq q c.msb _ n hunit hd,
    div_le_div_iff_of_pos_right hpos, div_left_inj' hpos.ne']
  exact ⟨by exact_mod_cast hle, fun h hne => heven (by exact_mod_cast h) (signedNat_ne_of_signedQuot_ne hne)⟩

theorem getLsbD_zero_of_even (b : BitVec w) (h : b.toNat % 2 = 0) : b.getLsbD 0 = false := by
  rw [BitVec.getLsbD, Nat.testBit_zero, h]
  rfl

theorem Format.signBit_even (hf : f.fracBits ≠ 0) (p : Bool) : f.signBit p % 2 = 0 := by
  cases p with
  | false => rfl
  | true => exact Nat.mod_eq_zero_of_dvd (dvd_pow_self 2 (by omega))

/-- Rounding to a format is correct in every mode; `l` and `c` are the exponents of the overflow threshold. -/
theorem Format.round_correct (hf : f.fracBits ≠ 0) (hw : w = f.fracBits + f.expBits + 1) {l c : Nat}
    (hl : l = f.fracBits + 2) (hc : 2 ^ f.expBits - 2 = c + 1 + (f.bias + f.fracBits)) (rm : RoundMode) (p : Bool)
    (n : Nat) {d : Nat} (hd : d ≠ 0) : ∃ b : BitVec w, (f.round rm (.rat p n d)).map (BitVec.ofNat w) = some b ∧
    b.msb = p ∧
    (rm = .down ∨ rm = .towardZero ∧ p = false → FVal.lt (.rat p n d) (f.value b.toNat) = false ∧
      ∀ c : BitVec w, f.value c.toNat ≠ .nan → FVal.lt (.rat p n d) (f.value c.toNat) = false →
        FVal.lt (f.value b.toNat) (f.value c.toNat) = false) ∧
    (rm = .up ∨ rm = .towardZero ∧ p = true → FVal.lt (f.value b.toNat) (.rat p n d) = false ∧
      ∀ c : BitVec w, f.value c.toNat ≠ .nan → FVal.lt (f.value c.toNat) (.rat p n d) = false →
        FVal.lt (f.value c.toNat) (f.value b.toNat) = false) ∧
    (rm = .nearestEven → (f.value b.toNat = .inf p ↔ (2 ^ l - 1) * 2 ^ c * d ≤ n) ∧
      ∀ (c : BitVec w) q a m r e k, f.value b.toNat = .rat q a m → f.value c.toNat = .rat r e k →
        |signedQuot q a m - signedQuot p n d| ≤ |signedQuot r e k - signedQuot p n d| ∧
        (|signedQuot q a m - signedQuot p n d| = |signedQuot r e k - signedQuot p n d| →
          signedQuot q a m ≠ signedQuot r e k → b.getLsbD 0 = false)) := by
  have he : f.infBits ≠ 0 := by
    obtain ⟨-, hjoin⟩ := join_greatest (f := f) (by omega)
    omega
  have hle := f.roundMagnitude_le rm p n d
  obtain ⟨hnat, hmsb⟩ := ofNat_signBit hw p (hle.trans_lt f.infBits_lt)
  refine ⟨_, rfl, hmsb, ?_, ?_, ?_⟩ <;> rw [hnat]
  · rintro (rfl | ⟨rfl, rfl⟩)
    · exact round_down_correct hf he hw p n hd
    · rw [roundMagnitude_towardZero]
      exact round_down_correct hf he hw false n hd
  · rintro (rfl | ⟨rfl, rfl⟩)
    · exact round_up_correct hf he hw p n hd
    · rw [roundMagnitude_towardZero]
      exact round_up_correct hf he hw true n hd
  · rintro rfl
    refine ⟨?_, fun c q a m r e k hb hc => ?_⟩
    · rw [hl, ← roundMagnitude_nearest_eq_infBits hf n hd p hc]
      rcases hle.lt_or_eq with hlt | heq
      · simp [value_finite p hlt, hlt.ne]
      · simp [heq, value_infinite]
    · obtain ⟨hnear, heven⟩ := round_nearest_correct hf hw p n hd c q a m r e k hb hc
      refine ⟨hnear, fun h hne => getLsbD_zero_of_even _ ?_⟩
      rw [hnat, Nat.add_mod, signBit_even hf, heven h hne]

end

/-- Settles O47: the rounding of each format, with its numbers. -/
theorem roundingCorrect : Obligations.RoundingCorrect :=
  ⟨fun rm p n _ hd => Format.round_correct (f := .single) (l := 25) (c := 103) (by decide) rfl rfl rfl rm p n hd,
    fun rm p n _ hd => Format.round_correct (f := .double) (l := 54) (c := 970) (by decide) rfl rfl rfl rm p n hd⟩

end Sys2Proof.Machine
end

section
/-! Rounding is exact where the value is representable, and every single and every 32-bit integer is a double (rules
R291, R304, R305). -/

namespace Sys2Proof.Machine

/-! ## The value of a bit pattern -/

section
variable {f : Format} {w : Nat}

/-- The value by the fields of the pattern; `u + 1` is the exponent of the unit. -/
theorem Format.value_of_bits (hw : w = f.fracBits + f.expBits + 1) {u : Nat} (hu : f.bias + f.fracBits = u + 1)
    (b : BitVec w) {e m : Nat} (he : e = (b.extractLsb' f.fracBits f.expBits).toNat)
    (hm : m = (b.extractLsb' 0 f.fracBits).toNat) :
    if e = 2 ^ f.expBits - 1 then f.value b.toNat = if m = 0 then .inf b.msb else .nan
    else ∃ n d, d ≠ 0 ∧ f.value b.toNat = .rat b.msb n d ∧
      (n : ℚ) / d = if e = 0 then (m : ℚ) / 2 ^ u else (2 ^ f.fracBits + m : ℚ) * 2 ^ e / 2 ^ (u + 1) := by
  obtain ⟨k, hk, hnat⟩ := exists_signBit hw b
  obtain ⟨hfrac, hexp, hneg⟩ := f.signBit_fields b.msb hk
  rw [BitVec.extractLsb'_toNat, Nat.shiftRight_eq_div_pow, hnat] at he
  rw [BitVec.extractLsb'_toNat, Nat.shiftRight_zero, hnat] at hm
  have hunit : f.unit = 2 ^ (u + 1) := congrArg (2 ^ ·) hu
  have hsign : decide (b.msb.toNat = 1) = b.msb := by cases b.msb <;> rfl
  simp only [hnat, value, ← he, ← hm, hneg, hsign, hunit]
  split_ifs with htop hz
  · rfl
  · rfl
  · refine ⟨m * 2, 2 ^ (u + 1), by positivity, rfl, ?_⟩
    push_cast
    rw [pow_succ]
    field_simp
  · refine ⟨(m + 2 ^ f.fracBits) * 2 ^ e, 2 ^ (u + 1), by positivity, rfl, ?_⟩
    push_cast
    ring

/-! ## Representable values -/

theorem Format.unit_eq_mul {g : Format} {c : Nat} (h : g.bias + g.fracBits = c + (f.bias + f.fracBits)) :
    g.unit = 2 ^ c * f.unit := by rw [unit, h, pow_add, ← unit]

theorem Format.round_value (hf : f.fracBits ≠ 0) (hw : w = f.fracBits + f.expBits + 1) (rm : RoundMode)
    {b : BitVec w} (hb : f.value b.toNat ≠ .nan) : (f.round rm (f.value b.toNat)).map (BitVec.ofNat w) = some b := by
  obtain ⟨j, hj, hnat⟩ := exists_signBit_le hw hb
  suffices h : f.round rm (f.value b.toNat) = some b.toNat by
    rw [h, Option.map_some, BitVec.ofNat_toNat, BitVec.setWidth_eq]
  rw [hnat]
  rcases hj.lt_or_eq with hj | rfl
  · rw [value_finite _ hj, round, roundMagnitude_of_magnitude hf f.unit_ne_zero hj rfl]
  · rw [value_infinite, round]

/-- The magnitude after the greatest finite value is a power of two. -/
theorem Format.magnitude_infBits (h : 1 < 2 ^ f.expBits) :
    f.magnitude f.infBits = 2 ^ (f.fracBits + (2 ^ f.expBits - 1)) := by
  have hdiv : f.infBits / 2 ^ f.fracBits = 2 ^ f.expBits - 1 := Nat.mul_div_cancel _ (by positivity)
  have hmod : f.infBits % 2 ^ f.fracBits = 0 := Nat.mul_mod_left _ _
  rw [magnitude, hdiv, hmod, if_neg (by omega), Nat.zero_add, pow_add]

/-- A rational that is a significand of at most the format's width, under an exponent not too great, is rounded to a
pattern of its value. -/
theorem Format.round_exact (hf : f.fracBits ≠ 0) (hx : 1 < 2 ^ f.expBits) (hw : w = f.fracBits + f.expBits + 1)
    (rm : RoundMode) (p : Bool) {n d m e l : Nat} (hd : d ≠ 0) (hn : n * f.unit = m * 2 ^ e * d) (hm : m < 2 ^ l)
    (hl : l ≤ f.fracBits + 1) (he : 1 ≤ e) (htop : l + e ≤ f.fracBits + (2 ^ f.expBits - 1)) :
    ∃ v : BitVec w, (f.round rm (.rat p n d)).map (BitVec.ofNat w) = some v ∧
      FVal.eq (f.value v.toNat) (.rat p n d) = true := by
  obtain ⟨k, hk⟩ := exists_magnitude m (hm.trans_le (Nat.pow_le_pow_right two_pos hl)) he
  have hlt : f.magnitude k < f.magnitude f.infBits := by
    calc f.magnitude k = m * 2 ^ e := hk
      _ < 2 ^ l * 2 ^ e := Nat.mul_lt_mul_of_pos_right hm (by positivity)
      _ = 2 ^ (l + e) := (pow_add 2 l e).symm
      _ ≤ 2 ^ (f.fracBits + (2 ^ f.expBits - 1)) := Nat.pow_le_pow_right two_pos htop
      _ = f.magnitude f.infBits := (magnitude_infBits hx).symm
  have hfin : k < f.infBits := f.magnitude_strictMono.lt_iff_lt.1 hlt
  rw [← hk] at hn
  obtain ⟨hnat, -⟩ := ofNat_signBit hw p (hfin.trans f.infBits_lt)
  refine ⟨BitVec.ofNat w (f.signBit p + k), ?_, ?_⟩
  · rw [round, roundMagnitude_of_magnitude hf hd hfin hn, Option.map_some]
  · rw [hnat, value_finite p hfin, FVal.eq_rat, signedNat_mul, signedNat_mul, hn]

end

/-! ## Singles and integers as doubles (rules R304, R305) -/

/-- Every finite single's magnitude is a significand and an exponent of the double format. -/
theorem round_single_exact (rm : RoundMode) (p : Bool) {j : Nat} (hj : j < Format.single.infBits) :
    ∃ v : DWord, rnd64 rm (.rat p (Format.single.magnitude j) Format.single.unit) = some v ∧
      FVal.eq (val64 v) (.rat p (Format.single.magnitude j) Format.single.unit) = true := by
  obtain ⟨e, m, hcan, rfl⟩ := Format.single.exists_canonical j
  have hexp := hcan.exponent
  have htop : e ≤ 255 := by
    simp only [Format.join, Format.infBits, Format.single] at hj
    omega
  obtain ⟨c, hc, hunit⟩ : ∃ c ≤ 925, Format.double.unit = 2 ^ c * Format.single.unit :=
    ⟨925, le_rfl, Format.unit_eq_mul rfl⟩
  refine Format.round_exact (f := .double) (e := e + c) (by decide) (by decide) rfl rm p Format.single.unit_ne_zero
    ?_ hcan.fits (by decide) (by omega) ?_
  · rw [Format.magnitude_join hcan, hunit, pow_add]
    ring
  · simp only [Format.single, Format.double]
    omega

/-- A 32-bit integer is a significand of the double format. -/
theorem round_int_exact (rm : RoundMode) (a : Word) : ∃ v : DWord, rnd64 rm (FVal.ofInt a.toInt) = some v ∧
    FVal.eq (val64 v) (FVal.ofInt a.toInt) = true := by
  have hrange := word_toInt_range a
  have habs : a.toInt.natAbs < 2 ^ 32 := by omega
  exact Format.round_exact (f := .double) (e := Format.double.bias + Format.double.fracBits) (by decide) (by decide)
    rfl rm _ one_ne_zero (Nat.mul_one _).symm habs (by decide) (by decide) (by decide)

/-- A single that is no NaN is exactly a double: infinities are kept, finite values are significands of it. -/
theorem double_of_single_exact (rm : RoundMode) {b : Word} (hb : val32 b ≠ .nan) :
    ∃ v, rnd64 rm (val32 b) = some v ∧ FVal.eq (val64 v) (val32 b) = true := by
  obtain ⟨j, hj, hnat⟩ := Format.exists_signBit_le (f := .single) (w := 32) rfl hb
  rw [val32, hnat]
  rcases hj.lt_or_eq with hj | rfl
  · rw [Format.value_finite _ hj]
    exact round_single_exact rm b.msb hj
  · rw [Format.value_infinite]
    refine ⟨_, rfl, ?_⟩
    obtain ⟨hdouble, -⟩ := Format.ofNat_signBit (f := .double) (w := 64) rfl b.msb Format.double.infBits_lt
    rw [val64, hdouble, Format.value_infinite]
    simp [FVal.eq]

/-- Settles O46: the values by their fields, the roundings by the magnitude they find again. -/
theorem roundingExact : Obligations.RoundingExact :=
  ⟨fun b _ _ he hm => Format.value_of_bits (f := .single) (u := 149) rfl rfl b he hm,
    fun b _ _ he hm => Format.value_of_bits (f := .double) (u := 1074) rfl rfl b he hm,
    fun rm _ hb => Format.round_value (f := .single) (by decide) rfl rm hb,
    fun rm _ hb => Format.round_value (f := .double) (by decide) rfl rm hb,
    fun rm _ hb => double_of_single_exact rm hb, fun rm b => round_int_exact rm b⟩

end Sys2Proof.Machine
end

section
/-! The return from an exception and the translation buffer's instructions (`46_system.md`, rules R356 to R360). -/

namespace Sys2Proof.Machine

/-- Settles O42: the pop of the Status stack is the whole update, read off bit by bit. -/
theorem returnFromException : Obligations.ReturnFromException :=
  ⟨fun s hgate => exec_completes hgate rfl (frame_status s (statusPop s.status))
      fun k hk => by simpa using getLsbD_statusPop s.status hk,
    by decide⟩

/-! ## The entry an instruction names (rules R357 to R359) -/

theorem frame_tlb (s : State) (i : Nat) (e : TlbEntry) : Frame s { s with tlb := s.tlb.set i e } [.tlb i] := by
  intro p hp
  cases p with
  | tlb j =>
    have hij : i ≠ j := fun h => hp (by simp [h])
    exact List.getElem?_set_ne hij
  | tlbSize => exact List.length_set
  | _ => rfl

theorem frame_entryHiLo (s : State) (hi lo : Word) :
    Frame s { s with entryHi := hi, entryLo := lo } [.entryHi, .entryLo] :=
  ((frame_entryHi s hi).mono (by simp)).trans ((frame_entryLo { s with entryHi := hi } lo).mono (by simp))

/-- `tlbr` and `tlbwi` are refused where Index names no entry. -/
theorem exec_tlbIndexRange {s : State} (hgate : s.gate 0 = none) (h : s.tlb.length ≤ s.indexField) :
    exec .tlbr s = .refused .tlbIndexRange ∧ exec .tlbwi s = .refused .tlbIndexRange := by
  constructor
  · change execTlbr s = _
    rw [execTlbr, onCop_of_gate hgate, List.getElem?_eq_none h]
  · change execTlbwi s = _
    rw [execTlbwi, onCop_of_gate hgate, if_neg (by omega)]

theorem exec_tlbr {s : State} {e : TlbEntry} (hgate : s.gate 0 = none) (he : s.tlb[s.indexField]? = some e) :
    ∃ t, exec .tlbr s = .next t ∧ After s t {} ∧ Frame s t [.entryHi, .entryLo] ∧
      t.entryHi = e.hi ∧ t.entryLo = e.lo := by
  have hexec : exec .tlbr s = s.onCop 0 ({ s with entryHi := e.hi, entryLo := e.lo }.complete {}) := by
    change execTlbr s = _
    rw [execTlbr, he]
  exact exec_completes hgate hexec (frame_entryHiLo s e.hi e.lo) (by simp)

theorem exec_tlbwi {s : State} (hgate : s.gate 0 = none) (h : s.indexField < s.tlb.length) :
    ∃ t, exec .tlbwi s = .next t ∧ After s t {} ∧ Frame s t [.tlb s.indexField] ∧
      t.tlb[s.indexField]? = some ⟨s.entryHi, s.entryLo⟩ :=
  exec_completes hgate (congrArg (s.onCop 0) (if_pos h)) (frame_tlb s _ _) (by simp [h])

theorem le_randomEntry (entries n : Nat) : 8 ≤ randomEntry entries n := Nat.le_add_right _ _

theorem randomEntry_lt {entries : Nat} (h : 8 < entries) (n : Nat) : randomEntry entries n < entries := by
  have hmod : n % (entries - 8) < entries - 8 := Nat.mod_lt _ (by omega)
  unfold randomEntry
  omega

theorem frame_drawn_tlb (s : State) (i : Nat) (e : TlbEntry) :
    Frame s { s.drawn with tlb := s.tlb.set i e } [.tlb i, .draws] :=
  ((frame_drawn s).mono (by simp)).trans ((frame_tlb s.drawn i e).mono (by simp))

theorem exec_tlbwr {s : State} (hgate : s.gate 0 = none) (h : 8 < s.tlb.length) :
    ∃ t j, exec .tlbwr s = .next t ∧ After s t {} ∧ Frame s t [.tlb j, .draws] ∧
      8 ≤ j ∧ j < s.tlb.length ∧ t.tlb[j]? = some ⟨s.entryHi, s.entryLo⟩ := by
  have hlt := randomEntry_lt h (Config.freeIndex s.draws)
  exact exists_comm.1 ⟨randomEntry s.tlb.length (Config.freeIndex s.draws),
    exec_completes hgate (congrArg (s.onCop 0) (if_pos h)) (frame_drawn_tlb s _ _)
      ⟨le_randomEntry _ _, hlt, by simp [hlt]⟩⟩

/-! ## The probe (rule R360) -/

/-- Without a hit no entry matches. -/
theorem tlbMatches_of_no_hit {s : State} {va : Word} (h : ∀ j e, ¬tlbHit s va j e) :
    tlbMatches s.tlb (va.extractLsb' 12 20) s.asid = [] :=
  List.eq_nil_iff_forall_not_mem.2 fun _ hp => h _ _ (mem_tlbMatches.1 hp)

/-- Two hits are two matching entries. -/
theorem tlbMatches_of_two_hits {s : State} {va : Word} {j k : Nat} {e f : TlbEntry} (hjk : j ≠ k)
    (hj : tlbHit s va j e) (hk : tlbHit s va k f) :
    ∃ p q l, tlbMatches s.tlb (va.extractLsb' 12 20) s.asid = p :: q :: l := by
  have hj : (e, j) ∈ tlbMatches s.tlb (va.extractLsb' 12 20) s.asid := mem_tlbMatches.2 hj
  have hk : (f, k) ∈ tlbMatches s.tlb (va.extractLsb' 12 20) s.asid := mem_tlbMatches.2 hk
  match hl : tlbMatches s.tlb (va.extractLsb' 12 20) s.asid with
  | [] => simp [hl] at hj
  | [p] =>
    rw [hl, List.mem_singleton] at hj hk
    exact absurd (congrArg Prod.snd (hj.trans hk.symm)) hjk
  | p :: q :: l => exact ⟨p, q, l, rfl⟩

/-- The number of an entry in the place of Index.Index. -/
theorem index_shifted (j : Nat) : BitVec.ofNat 32 j <<< 8 = BitVec.ofNat 32 (j * 256) := by
  rw [shiftLeft_eq_ofNat, BitVec.toNat_ofNat]
  exact BitVec.eq_of_toNat_eq (by simp)

theorem exec_tlbp_of_no_hit {s : State} (hgate : s.gate 0 = none) (h : ∀ j e, ¬tlbHit s s.entryHi j e) :
    ∃ t, exec .tlbp s = .next t ∧ After s t {} ∧ Frame s t [.index] ∧ t.index = 0x80000000 := by
  have hexec : exec .tlbp s = s.onCop 0 ({ s with index := 0x80000000 }.complete {}) := by
    change execTlbp s = _
    rw [execTlbp, State.entryVpn, tlbMatches_of_no_hit h]
  exact exec_completes hgate hexec (frame_index s _) (by simp)

theorem exec_tlbp_of_unique_hit {s : State} {j : Nat} {e : TlbEntry} (hgate : s.gate 0 = none)
    (hj : tlbHit s s.entryHi j e) (h : ∀ k f, tlbHit s s.entryHi k f → k = j) :
    ∃ t, exec .tlbp s = .next t ∧ After s t {} ∧ Frame s t [.index] ∧ t.index = BitVec.ofNat 32 (j * 256) := by
  have hexec : exec .tlbp s = s.onCop 0 ({ s with index := BitVec.ofNat 32 j <<< 8 }.complete {}) := by
    change execTlbp s = _
    rw [execTlbp, State.entryVpn, tlbMatches_of_unique hj h]
  exact exec_completes hgate hexec (frame_index s _) (by simp [index_shifted])

theorem exec_tlbp_of_two_hits {s : State} {j k : Nat} {e f : TlbEntry} (hgate : s.gate 0 = none) (hjk : j ≠ k)
    (hj : tlbHit s s.entryHi j e) (hk : tlbHit s s.entryHi k f) : exec .tlbp s = .fault .tlbMultipleMatch := by
  obtain ⟨p, q, l, hl⟩ := tlbMatches_of_two_hits hjk hj hk
  change execTlbp s = _
  rw [execTlbp, onCop_of_gate hgate, State.entryVpn, hl]

/-- Settles O43: the entry Index names or a drawn one, and the probe by what EntryHi hits. -/
theorem tlbInstructions : Obligations.TlbInstructions := by
  rintro s _ hgate rfl
  exact ⟨fun _ he => exec_tlbr hgate he, exec_tlbwi hgate, exec_tlbIndexRange hgate, exec_tlbwr hgate,
    exec_tlbp_of_no_hit hgate, fun _ _ hj h => exec_tlbp_of_unique_hit hgate hj h,
    fun _ _ _ _ hjk hj hk => exec_tlbp_of_two_hits hgate hjk hj hk⟩

end Sys2Proof.Machine
end

section
/-! Exceptions are precise (`60_exceptions.md`, rules R380, R400): whatever an instruction answers, it has raised one
exception on the state as it was, or completed after an effect that leaves the control state alone, and the system
state too unless coprocessor 0 is usable. -/

namespace Sys2Proof.Machine

/-! ## What an instruction's effect leaves alone -/

/-- The registers of coprocessor 0, Random apart, and the translation buffer are the same in two states. -/
structure SameSystem (s u : State) : Prop where
  tlb : u.tlb = s.tlb := by rfl
  index : u.index = s.index := by rfl
  entryLo : u.entryLo = s.entryLo := by rfl
  prid : u.prid = s.prid := by rfl
  status : u.status = s.status := by rfl
  cause : u.cause = s.cause := by rfl
  epc : u.epc = s.epc := by rfl
  badVAddr : u.badVAddr = s.badVAddr := by rfl
  context : u.context = s.context := by rfl
  entryHi : u.entryHi = s.entryHi := by rfl

/-- `u` is `s` after the effect of an instruction that is still to complete: the control state, the hazard state, the
outcome, the inputs of the step and what an exception records stand as they were, and the system state too unless
coprocessor 0 passes its test. The fields are `rfl` for an update of other registers or of memory. -/
structure Effect (s u : State) : Prop where
  cfg : u.cfg = s.cfg := by rfl
  pc : u.pc = s.pc := by rfl
  npc : u.npc = s.npc := by rfl
  inDelay : u.inDelay = s.inDelay := by rfl
  loadPending : u.loadPending = s.loadPending := by rfl
  fccFresh : u.fccFresh = s.fccFresh := by rfl
  hiloAge : u.hiloAge = s.hiloAge := by rfl
  outcome : u.outcome = s.outcome := by rfl
  epc : u.epc = s.epc := by rfl
  badVAddr : u.badVAddr = s.badVAddr := by rfl
  intPins : u.intPins = s.intPins := by rfl
  random : u.random = s.random := by rfl
  system : s.gate 0 ≠ none → SameSystem s u := by exact fun _ => {}

/-- The write of a general register. -/
theorem effect_setX (s : State) (r : Reg) (v : Word) : Effect s (s.setX r v) := by
  unfold State.setX
  split <;> exact {}

/-- The same after a draw, as `cfc1` of FCR31 makes it. -/
theorem effect_drawn_setX (s : State) (r : Reg) (v : Word) : Effect s (s.drawn.setX r v) := by
  unfold State.setX
  split <;> exact {}

/-- A write of a coprocessor-0 register: the ones an exception records, and Random, discard it (rule R36). -/
theorem effect_cp0Write {s u : State} {rd : Reg} {v : Word} (hgate : s.gate 0 = none)
    (hw : s.cp0Write rd v = some u) : Effect s u := by
  unfold State.cp0Write at hw
  split_ifs at hw <;> cases hw <;> exact { system := absurd hgate }

/-! ## The ends of an instruction -/

/-- The result answers a next state only by raising one exception on `s`, or by completing after an effect on `s`. -/
def Precise (s : State) (r : Result) : Prop :=
  ∀ t, r = .next t → (∃ e, s.raise e = .next t) ∨ ∃ u c, Effect s u ∧ t = (u.bookkeep c).advance c

variable {s : State}

theorem precise_fault (r : Fault) : Precise s (.fault r) := fun _ h => by cases h

theorem precise_refused (r : Refusal) : Precise s (.refused r) := fun _ h => by cases h

theorem precise_raise (e : Exc) : Precise s (s.raise e) := fun _ h => .inl ⟨e, h⟩

theorem precise_complete {u : State} (h : Effect s u) (c : Completion) : Precise s (u.complete c) :=
  fun _ ht => .inr ⟨u, c, h, (Host.Outcome.next.inj ht).symm⟩

theorem precise_stop (st : Stop) : Precise s (s.stop st) := fun _ h =>
  have ⟨e, _, he⟩ := stop_eq_next h
  .inl ⟨e, he⟩

theorem precise_ite {p : Prop} [Decidable p] {r q : Result} (hr : Precise s r) (hq : Precise s q) :
    Precise s (if p then r else q) := by
  split
  · exact hr
  · exact hq

/-- The effect under a coprocessor's test is had only where the test passes. -/
theorem precise_onCop {z : CopNum} {k : Result} (hk : s.gate z = none → Precise s k) : Precise s (s.onCop z k) := by
  intro t ht
  rcases onCop_eq_next ht with hr | ⟨hgate, hn⟩
  · exact .inl ⟨_, hr⟩
  · exact hk hgate t hn

theorem precise_onEven {regs : List Reg} {k : Result} (hk : Precise s k) : Precise s (State.onEven regs k) :=
  fun t ht => hk t (onEven_eq_next ht).2

theorem precise_writesX (r : Reg) (v : Word) (c : Completion) : Precise s ((s.setX r v).complete c) :=
  precise_complete (effect_setX s r v) c

theorem precise_drawn_writesX (r : Reg) (v : Word) (c : Completion) : Precise s ((s.drawn.setX r v).complete c) :=
  precise_complete (effect_drawn_setX s r v) c

theorem precise_branchOnInput (z : CopNum) (sense : Bool) (offset : BitVec 16) :
    Precise s (s.branchOnInput z sense offset) := precise_complete (by exact {}) _

theorem precise_finishLoad (rt : Reg) (r : Except Stop Word) : Precise s (s.finishLoad rt r) := by
  cases r with
  | error st => exact precise_stop st
  | ok v => exact precise_writesX rt v _

theorem precise_loadThen (r : Except Stop Word) {k : Word → Result} (hk : ∀ v, Precise s (k v)) :
    Precise s (s.loadThen r k) := by
  cases r with
  | error st => exact precise_stop st
  | ok v => exact hk v

theorem effect_writeCells (s : State) (cells : List Host.Cell) : Effect s (s.writeCells cells) := {}

theorem precise_store (va : Word) (bytes : List Byte) : Precise s (s.finishStore (s.store va bytes)) := by
  intro t ht
  rcases finishStore_eq_next ht with hr | ⟨u, hu, hc⟩
  · exact .inl hr
  · obtain ⟨a, _, rfl⟩ := store_eq_ok hu
    exact precise_complete (effect_writeCells s _) _ t hc

theorem precise_storePart (left : Bool) (va v : Word) : Precise s (s.finishStore (s.storePart left va v)) := by
  intro t ht
  rcases finishStore_eq_next ht with hr | ⟨u, hu, hc⟩
  · exact .inl hr
  · obtain ⟨base, _, rfl⟩ := storePart_eq_ok hu
    exact precise_complete (effect_writeCells s _) _ t hc

theorem precise_finishS (fd : Reg) (r : Option Word) : Precise s (s.finishS fd r) := by
  cases r with
  | some v => exact precise_complete (by exact {}) _
  | none => exact precise_complete (by exact {}) _

theorem precise_finishD (fd : Reg) (r : Option DWord) : Precise s (s.finishD fd r) := by
  cases r with
  | some v => exact precise_complete (by exact {}) _
  | none => exact precise_complete (by exact {}) _

theorem precise_finishW (fd : Reg) (r : Option Word) : Precise s (s.finishW fd r) := by
  cases r with
  | some v => exact precise_complete (by exact {}) _
  | none => exact precise_complete (by exact {}) _

theorem precise_compareS (cond : BitVec 4) (fs ft : Reg) : Precise s (s.compareS cond fs ft) :=
  precise_onCop fun _ => precise_complete (by exact {}) _

theorem precise_compareD (cond : BitVec 4) (fs ft : Reg) : Precise s (s.compareD cond fs ft) :=
  precise_onCop fun _ => precise_onEven (precise_complete (by exact {}) _)

/-! ## The instructions of coprocessor 0 -/

theorem precise_execMfc0 (rt rd : Reg) : Precise s (execMfc0 rt rd s) := by
  refine precise_onCop fun _ => ?_
  split
  · exact precise_writesX rt _ _
  · exact precise_refused _

theorem precise_execMtc0 (rt rd : Reg) : Precise s (execMtc0 rt rd s) := by
  refine precise_onCop fun hgate => ?_
  split
  · next hw => exact precise_complete (effect_cp0Write hgate hw) _
  · exact precise_refused _

theorem precise_execTlbr : Precise s (execTlbr s) := by
  refine precise_onCop fun hgate => ?_
  split
  · exact precise_complete (by exact { system := absurd hgate }) _
  · exact precise_refused _

theorem precise_execTlbp : Precise s (execTlbp s) := by
  refine precise_onCop fun hgate => ?_
  split
  · exact precise_complete (by exact { system := absurd hgate }) _
  · exact precise_complete (by exact { system := absurd hgate }) _
  · exact precise_fault _

/-! ## Every instruction -/

theorem precise_exec (i : Instr) : Precise s (exec i s) := by
  cases i with
  | add | addi | sub => exact precise_ite (precise_raise _) (precise_writesX _ _ _)
  | addu | addiu | subu | and | or | xor | nor | andi | ori | xori | sll | srl | sra | sllv | srlv | srav
  | lui | slt | sltu | slti | sltiu | mfhi | mflo | jal => exact precise_writesX _ _ _
  | mult | multu | mthi | mtlo | beq | bne | blez | bgtz | bltz | bgez | j | jr =>
    exact precise_complete (by exact {}) _
  | div | divu => exact precise_ite (precise_complete (by exact {}) _) (precise_complete (by exact {}) _)
  | bltzal | bgezal | jalr => exact precise_ite (precise_refused _) (precise_writesX _ _ _)
  | bc1f | bc1t | mtc1 | mtc2 | ctc2 | mtc3 | ctc3 | movS =>
    exact precise_onCop fun _ => precise_complete (by exact {}) _
  | bc0f | bc0t | bc2f | bc2t | bc3f | bc3t => exact precise_onCop fun _ => precise_branchOnInput _ _ _
  | syscall | brk => exact precise_raise _
  | cfc0 | ctc0 => exact precise_onCop fun _ => precise_raise _
  | cop2 | cop3 => exact precise_onCop fun _ => precise_refused _
  | lwc0 | swc0 => exact precise_refused _
  | lb | lbu | lh | lhu | lw | lwl | lwr => exact precise_finishLoad _ _
  | lwc1 | lwc2 | lwc3 => exact precise_onCop fun _ => precise_loadThen _ fun _ => precise_complete (by exact {}) _
  | sb | sh | sw => exact precise_store _ _
  | swl | swr => exact precise_storePart _ _ _
  | swc1 | swc2 | swc3 => exact precise_onCop fun _ => precise_store _ _
  | mfc1 | mfc2 | cfc2 | mfc3 | cfc3 => exact precise_onCop fun _ => precise_writesX _ _ _
  | cfc1 => exact precise_onCop fun _ =>
      precise_ite (precise_drawn_writesX _ _ _) (precise_ite (precise_writesX _ _ _) (precise_refused _))
  | ctc1 => exact precise_onCop fun _ => precise_ite (precise_complete (by exact {}) _) (precise_refused _)
  | mfc0 => exact precise_execMfc0 _ _
  | mtc0 => exact precise_execMtc0 _ _
  | rfe => exact precise_onCop fun hgate => precise_complete (by exact { system := absurd hgate }) _
  | tlbr => exact precise_execTlbr
  | tlbwi | tlbwr =>
    exact precise_onCop fun hgate =>
      precise_ite (precise_complete (by exact { system := absurd hgate }) _) (precise_refused _)
  | tlbp => exact precise_execTlbp
  | addS | subS | mulS | divS | absS | negS | cvtSW => exact precise_onCop fun _ => precise_finishS _ _
  | cvtSD => exact precise_onCop fun _ => precise_onEven (precise_finishS _ _)
  | addD | subD | mulD | divD | absD | negD | cvtDS | cvtDW =>
    exact precise_onCop fun _ => precise_onEven (precise_finishD _ _)
  | movD => exact precise_onCop fun _ => precise_onEven (precise_complete (by exact {}) _)
  | cvtWS => exact precise_onCop fun _ => precise_finishW _ _
  | cvtWD => exact precise_onCop fun _ => precise_onEven (precise_finishW _ _)
  | cFS | cUnS | cEqS | cUeqS | cOltS | cUltS | cOleS | cUleS | cSfS | cNgleS | cSeqS | cNglS | cLtS | cNgeS
  | cLeS | cNgtS => exact precise_compareS _ _ _
  | cFD | cUnD | cEqD | cUeqD | cOltD | cUltD | cOleD | cUleD | cSfD | cNgleD | cSeqD | cNglD | cLtD | cNgeD
  | cLeD | cNgtD => exact precise_compareD _ _ _

/-- Completing after an effect leaves the control state as `After` says. -/
theorem Effect.after {u : State} (h : Effect s u) (c : Completion) : After s ((u.bookkeep c).advance c) c :=
  after_complete c h.cfg h.pc h.npc h.inDelay h.loadPending h.fccFresh h.hiloAge

/-- Settles O54: every end of an instruction is precise. -/
theorem exceptionsPrecise : Obligations.ExceptionsPrecise := by
  intro i s t ht
  refine (precise_exec i t ht).imp_right ?_
  rintro ⟨u, c, hu, rfl⟩
  refine ⟨⟨c, hu.after c⟩, ?_⟩
  simp [hu.cfg, hu.outcome, hu.epc, hu.badVAddr, hu.intPins, hu.random]

end Sys2Proof.Machine
end

section
/-! Trap entry, the vectors, interrupts, and the protection of the system state from user mode (`60_exceptions.md`,
rules R370, R379, R381, R382, R391, R393, R400). -/

namespace Sys2Proof.Machine

/-! ## Vectors and codes (rules R370, R382) -/

/-- A refill of the translation buffer is one of the user segment below 2^31. -/
theorem userRefill_of_refill {e : Exc} {va : Word} (h : e = .tlbLoad va true ∨ e = .tlbStore va true) :
    e.userRefill = decide (va.toNat < 2147483648) := by
  have hbit : (true && !va.getLsbD 31) = decide (va.toNat < 2147483648) := by
    rw [getLsbD_31, Bool.true_and, ← decide_not]
    exact decide_eq_decide.2 Nat.not_le
  rcases h with rfl | rfl <;> exact hbit

/-- No other exception is a user-segment refill. -/
theorem userRefill_eq_false {e : Exc} (h : ∀ va, e ≠ .tlbLoad va true ∧ e ≠ .tlbStore va true) :
    e.userRefill = false := by
  cases e with
  | tlbLoad va refill =>
    cases refill with
    | true => exact absurd rfl (h va).1
    | false => rfl
  | tlbStore va refill =>
    cases refill with
    | true => exact absurd rfl (h va).2
    | false => rfl
  | _ => rfl

theorem vector_of_refill {s : State} {e : Exc} {va : Word} (h : e = .tlbLoad va true ∨ e = .tlbStore va true) :
    s.vector e = excVector (s.status.getLsbD 22) (decide (va.toNat < 2147483648)) := by
  rw [State.vector, userRefill_of_refill h, State.bev]

/-- Settles O53: the vector is told by BEV and by whether the exception is a user-segment refill. -/
theorem vectorsAndCodes : Obligations.VectorsAndCodes := by
  refine ⟨fun s va hbev => ?_, fun s va hbev => ?_, fun s e he => ?_, fun va r z => rfl⟩
  · rw [vector_of_refill (.inl rfl), vector_of_refill (.inr rfl), hbev]
    simp [excVector]
  · rw [vector_of_refill (.inl rfl), vector_of_refill (.inr rfl), hbev]
    simp [excVector]
  · rw [State.vector, userRefill_eq_false he, State.bev]
    simp [excVector]

/-- Every exception enters at one of four addresses. -/
theorem vector_mem (s : State) (e : Exc) : s.vector e ∈ [0x80000000, 0x80000080, 0xBFC00100, 0xBFC00180] := by
  have h : ∀ bev refill, excVector bev refill ∈ [0x80000000, 0x80000080, 0xBFC00100, 0xBFC00180] := by decide
  exact h s.bev e.userRefill

/-! ## The fields trap entry writes (rules R38, R63, R379, R381) -/

/-- A field above the low part of a word is one of the high part. -/
theorem extract_above_append {n m k : Nat} (i : Nat) (a : BitVec n) (b : BitVec m) :
    (a ++ b).extractLsb' (m + i) k = a.extractLsb' i k := by
  rw [BitVec.extractLsb'_append_eq_of_le (Nat.le_add_right m i), Nat.add_sub_cancel_left]

theorem causeEntry_fields (old : Word) (bd : Bool) (ce : CopNum) (code : BitVec 5) :
    (causeEntry old bd ce code).getLsbD 31 = bd ∧ (causeEntry old bd ce code).extractLsb' 2 5 = code ∧
      (causeEntry old bd ce code).extractLsb' 28 2 = ce ∧
      (causeEntry old bd ce code).extractLsb' 8 2 = old.extractLsb' 8 2 := by
  unfold causeEntry
  refine ⟨?_, ?_, ?_, ?_⟩
  · simp only [BitVec.getLsbD_append]
    simp
  · exact extract_mid_append _ code 0#2
  · calc (causeEntry old bd ce code).extractLsb' 28 2
      _ = (BitVec.ofBool bd ++ 0#1 ++ ce ++ 0#18 ++ old.extractLsb' 8 2 ++ 0#1 ++ code).extractLsb' 26 2 :=
        extract_above_append 26 _ 0#2
      _ = (BitVec.ofBool bd ++ 0#1 ++ ce ++ 0#18 ++ old.extractLsb' 8 2 ++ 0#1).extractLsb' 21 2 :=
        extract_above_append 21 _ code
      _ = (BitVec.ofBool bd ++ 0#1 ++ ce ++ 0#18 ++ old.extractLsb' 8 2).extractLsb' 20 2 :=
        extract_above_append 20 _ 0#1
      _ = (BitVec.ofBool bd ++ 0#1 ++ ce ++ 0#18).extractLsb' 18 2 := extract_above_append 18 _ _
      _ = ce := extract_mid_append _ ce 0#18
  · calc (causeEntry old bd ce code).extractLsb' 8 2
      _ = (BitVec.ofBool bd ++ 0#1 ++ ce ++ 0#18 ++ old.extractLsb' 8 2 ++ 0#1 ++ code).extractLsb' 6 2 :=
        extract_above_append 6 _ 0#2
      _ = (BitVec.ofBool bd ++ 0#1 ++ ce ++ 0#18 ++ old.extractLsb' 8 2 ++ 0#1).extractLsb' 1 2 :=
        extract_above_append 1 _ code
      _ = old.extractLsb' 8 2 := extract_mid_append _ (old.extractLsb' 8 2) 0#1

theorem contextWithVa_fields (old va : Word) :
    (contextWithVa old va).extractLsb' 2 19 = va.extractLsb' 12 19 ∧
      (contextWithVa old va).extractLsb' 21 11 = old.extractLsb' 21 11 := by
  unfold contextWithVa
  refine ⟨extract_mid_append _ (va.extractLsb' 12 19) 0#2, ?_⟩
  exact (extract_above_append 19 _ 0#2).trans BitVec.extractLsb'_append_eq_left

theorem entryHiWithVa_fields (old va : Word) :
    (entryHiWithVa old va).extractLsb' 12 20 = va.extractLsb' 12 20 ∧
      (entryHiWithVa old va).extractLsb' 6 6 = old.extractLsb' 6 6 := by
  unfold entryHiWithVa
  refine ⟨?_, extract_mid_append _ (old.extractLsb' 6 6) 0#6⟩
  exact (extract_above_append 6 _ _).trans BitVec.extractLsb'_append_eq_left

theorem trapEntry_of_tlbAddress (s : State) {e : Exc} {va : Word} (h : e.tlbAddress = some va) :
    (s.trapEntry e).context = contextWithVa s.context va ∧ (s.trapEntry e).entryHi = entryHiWithVa s.entryHi va := by
  simp [State.trapEntry, h]

theorem trapEntry_of_no_tlbAddress (s : State) {e : Exc} (h : e.tlbAddress = none) :
    (s.trapEntry e).context = s.context ∧ (s.trapEntry e).entryHi = s.entryHi := by
  simp [State.trapEntry, h]

/-- An exception that records no address is none of the translation buffer. -/
theorem tlbAddress_of_badAddress {e : Exc} (h : e.badAddress = none) : e.tlbAddress = none := by
  cases e with
  | tlbMod | tlbLoad | tlbStore | addressErrorLoad | addressErrorStore => cases h
  | _ => rfl

theorem frame_trapEntry (s : State) (e : Exc) :
    Frame s (s.trapEntry e) [.epc, .cause, .badVAddr, .context, .entryHi, .status, .draws] := by
  intro p hp
  cases p with
  | epc | cause | badVAddr | context | entryHi | status | draws => simp at hp
  | _ => simp [Part.same]

/-- An address error records its address in BadVAddr alone. -/
theorem trapEntry_of_addressError (s : State) {e : Exc} {va : Word}
    (h : e = .addressErrorLoad va ∨ e = .addressErrorStore va) : (s.trapEntry e).badVAddr = va ∧
      (s.trapEntry e).context = s.context ∧ (s.trapEntry e).entryHi = s.entryHi := by
  rcases h with rfl | rfl <;> exact ⟨rfl, rfl, rfl⟩

theorem tlbAddress_of_tlb {e : Exc} {va : Word} {r : Bool}
    (h : e = .tlbMod va ∨ e = .tlbLoad va r ∨ e = .tlbStore va r) :
    e.badAddress = some va ∧ e.tlbAddress = some va := by
  rcases h with rfl | rfl | rfl <;> exact ⟨rfl, rfl⟩

/-- A TLB exception records its address in BadVAddr, Context and EntryHi. -/
theorem trapEntry_of_tlb (s : State) {e : Exc} {va : Word} {r : Bool}
    (h : e = .tlbMod va ∨ e = .tlbLoad va r ∨ e = .tlbStore va r) : (s.trapEntry e).badVAddr = va ∧
      (s.trapEntry e).context.extractLsb' 2 19 = va.extractLsb' 12 19 ∧
      (s.trapEntry e).context.extractLsb' 21 11 = s.context.extractLsb' 21 11 ∧
      (s.trapEntry e).entryHi.extractLsb' 12 20 = va.extractLsb' 12 20 ∧
      (s.trapEntry e).entryHi.extractLsb' 6 6 = s.entryHi.extractLsb' 6 6 := by
  obtain ⟨hbad, htlb⟩ := tlbAddress_of_tlb h
  obtain ⟨hcontext, hentryHi⟩ := trapEntry_of_tlbAddress s htlb
  obtain ⟨hpage, hbase⟩ := contextWithVa_fields s.context va
  obtain ⟨hvpn, hasid⟩ := entryHiWithVa_fields s.entryHi va
  rw [hcontext, hentryHi]
  exact ⟨by simp [hbad], hpage, hbase, hvpn, hasid⟩

/-- Settles O52: the fields `State.trapEntry` writes, and the frame of the rest. -/
theorem trapEntry : Obligations.TrapEntry := by
  intro s e hmips
  obtain ⟨hbd, hcode, hce, hip⟩ := causeEntry_fields s.cause (s.cfg.delaySlots && s.inDelay) (e.ce s.draws) e.code
  refine ⟨s.trapEntry e, raise_mips1 hmips e, ?_, hcode, ?_, hip, fun va => trapEntry_of_addressError s,
    fun va r => trapEntry_of_tlb s, fun hnone => ?_, fun k hk => getLsbD_statusPush s.status hk, rfl, ?_, ?_, rfl, rfl,
    rfl, frame_trapEntry s e⟩
  · rw [trapEntry_cause, hbd, trapEntry_epc]
    simp only [← Bool.and_eq_true]
    cases s.cfg.delaySlots && s.inDelay with
    | true => exact ⟨rfl, rfl⟩
    | false => exact ⟨rfl, rfl⟩
  · rintro z rfl
    exact hce
  · exact ⟨by simp [hnone], trapEntry_of_no_tlbAddress s (tlbAddress_of_badAddress hnone)⟩
  · intro hslots
    simp [hslots]
  · intro hslots
    simp [hslots]

/-! ## Interrupts (rules R391, R393) -/

theorem ne_zero_iff_exists_bit {w : Nat} {v : BitVec w} : v ≠ 0 ↔ ∃ i < w, v.getLsbD i = true := by
  constructor
  · intro h
    by_contra hnone
    exact h (BitVec.eq_of_getLsbD_eq fun i hi => by simpa using fun hb => hnone ⟨i, hi, hb⟩)
  · rintro ⟨i, _, hb⟩ rfl
    simp at hb

/-- Cause.IP: two software bits below the six live inputs (rule R390). -/
theorem getLsbD_pendingInterrupts (s : State) (i : Nat) : s.pendingInterrupts.getLsbD i =
    if i < 2 then s.cause.getLsbD (8 + i) else s.intPins.getLsbD (i - 2) := by
  rw [State.pendingInterrupts, BitVec.getLsbD_append]
  split
  · next h => simp [h]
  · rfl

theorem interruptTaken_iff {s : State} (h : s.cfg.trapModel = .mips1) : s.interruptTaken = true ↔
    s.status.getLsbD 0 = true ∧ s.pendingInterrupts &&& s.status.extractLsb' 8 8 ≠ 0 := by
  simp [State.interruptTaken, h, State.interruptsEnabled]

/-- Settles O55: the test of the pending and enabled sources bit by bit, made before the fetch. -/
theorem interrupts : Obligations.Interrupts := by
  refine ⟨fun s hmips => ?_, fun s hrun hint => ?_, fun s hfault => ?_⟩
  · rw [interruptTaken_iff hmips, ne_zero_iff_exists_bit]
    refine and_congr_right fun _ => exists_congr fun i => and_congr_right fun hi => ?_
    rw [BitVec.getLsbD_and, getLsbD_pendingInterrupts s i, BitVec.getLsbD_extractLsb', Bool.and_eq_true, and_comm]
    simp [hi]
  · rw [step_running hrun, State.cycle, if_pos hint]
  · simp [State.interruptTaken, State.sampleInputs, hfault]

/-! ## User mode (rules R101, R400) -/

/-- In user mode without Status.CU0, coprocessor 0 does not pass its test. -/
theorem gate_zero_of_userMode {s : State} (hmips : s.cfg.trapModel = .mips1) (huser : s.status.getLsbD 1 = true)
    (hcu : s.status.getLsbD 28 = false) : s.gate 0 ≠ none := by
  intro hgate
  obtain ⟨hu, -⟩ := gate_eq_none.1 hgate
  obtain ⟨-, hcop⟩ := usable_iff.1 hu
  rcases hcop hmips with hbit | ⟨-, hkernel⟩
  · exact Bool.false_ne_true (hcu.symm.trans hbit)
  · exact Bool.false_ne_true (hkernel.symm.trans huser)

/-- Trap entry is to kernel mode with interrupts off, and only the six bits of the KU/IE stack move. -/
theorem statusPush_fields (st : Word) :
    (statusPush st).extractLsb' 0 2 = 0 ∧ (statusPush st).extractLsb' 6 26 = st.extractLsb' 6 26 := by
  unfold statusPush
  refine ⟨extract_low_append _ 0#2, ?_⟩
  exact (extract_above_append 4 _ 0#2).trans BitVec.extractLsb'_append_eq_left

theorem SameSystem.complete {s u : State} (h : SameSystem s u) (c : Completion) :
    SameSystem s ((u.bookkeep c).advance c) where
  tlb := by simpa using h.tlb
  index := by simpa using h.index
  entryLo := by simpa using h.entryLo
  prid := by simpa using h.prid
  status := by simpa using h.status
  cause := by simpa using h.cause
  epc := by simpa using h.epc
  badVAddr := by simpa using h.badVAddr
  context := by simpa using h.context
  entryHi := by simpa using h.entryHi

/-- A cycle where coprocessor 0 does not pass its test raises, or leaves the system state alone. -/
theorem cycle_keeps_system {s u : State} (hgate : s.gate 0 ≠ none) (h : s.cycle exec = .next u) :
    (∃ e, s.raise e = .next u) ∨ SameSystem s u := by
  rcases cycle_eq_next h with hr | ⟨_, i, _, _, _, _, hi⟩
  · exact .inl hr
  · refine (precise_exec i u hi).imp_right ?_
    rintro ⟨v, c, hv, rfl⟩
    exact (hv.system hgate).complete c

/-- Settles O57: coprocessor 0 does not pass its test, so a cycle enters a trap or keeps the system state. -/
theorem userModeProtected : Obligations.UserModeProtected := by
  intro s t hmips huser hcu hstep
  obtain ⟨_, u, hcycle, rfl⟩ := step_eq_next hstep
  rcases cycle_keeps_system (gate_zero_of_userMode hmips huser hcu) hcycle with ⟨e, he⟩ | hsys
  · obtain rfl : s.trapEntry e = u := by simpa [raise_mips1 hmips] using he
    obtain ⟨hmode, hrest⟩ := statusPush_fields s.status
    refine ⟨by simp, by simp, by simp, by simp, .inr ⟨?_, ?_, by simp, by simp, by simp, by simp, by simp, ?_⟩⟩
    · simpa using hmode
    · simpa using hrest
    · simpa using vector_mem s e
  · simp [hsys.tlb, hsys.index, hsys.entryLo, hsys.prid, hsys.status, hsys.cause, hsys.epc, hsys.badVAddr,
      hsys.context, hsys.entryHi]

end Sys2Proof.Machine
end
